-- ==== Sys2Proof/Word.lean ====
section
/-! DEFINITION. The words the engine meets: bytes, the operand ports of an operation, and what the
outside world can do next. -/

namespace Sys2Proof

/-- One byte (R14). -/
abbrev Byte := BitVec 8

/-- A finite byte sequence; index 0 is the first byte on the wire (R14). -/
abbrev Bytes := List Byte

/-- The opcode and the operand ports of one issued operation (R82). `pkt` is the buffer RXBUF, its
length the port RXLEN, and `din` the buffer DIN: operands, passed with the operation (R50, log 3). -/
structure Ports where
  op   : BitVec 8
  rid  : BitVec 16
  addr : BitVec 64
  cnt  : BitVec 16
  data : BitVec 64
  din  : Bytes
  pkt  : Bytes
  cap  : BitVec 16
  tmo  : BitVec 32
deriving DecidableEq, Repr

/-- An operation with the given opcode and every operand port zero or empty. -/
def Ports.ofOp (op : BitVec 8) : Ports :=
  { op := op, rid := 0, addr := 0, cnt := 0, data := 0, din := [], pkt := [], cap := 0, tmo := 0 }

/-- What the world outside does to the engine next (R62): the host issues an operation, the transport
(through the host) writes received bytes to RXBUF for the operation issued next (log 1), or the reset
input is applied and released (R270). -/
inductive Event where
  | issue   (p : Ports)
  | receive (b : Bytes)
  | reset
deriving DecidableEq, Repr

end Sys2Proof
end

