-- ==== Sys2Proof/Machine/Bytes.lean ====
section
/-! DEFINITION. Big-endian primitives over byte sequences (R14, R15, R52 to R54). -/

namespace Sys2Proof.Machine

/-- `enc_be(v, n)`: the `n` bytes of `v`, most significant first (R15). -/
def encBe : Nat → Nat → Bytes
  | 0, _ => []
  | n + 1, v => BitVec.ofNat 8 (v / 256 ^ n) :: encBe n v

/-- The unsigned integer a byte sequence spells, most significant byte first (R15). -/
def beNat : Bytes → Nat
  | [] => 0
  | b :: rest => b.toNat * 256 ^ rest.length + beNat rest

/-- `b[i..j)` (R14). -/
def slice (b : Bytes) (i j : Nat) : Bytes := (b.drop i).take (j - i)

/-- `MemRead(b, off, n)` (R15), defined there for `off + n <= len(b)`; every caller of the model
stands behind a length guard (R58, log 14). -/
def memRead (b : Bytes) (off n : Nat) : Nat := beNat (slice b off (off + n))

/-- `MemWrite(b, off, n, v)` (R15). -/
def memWrite (b : Bytes) (off n v : Nat) : Bytes := b.take off ++ encBe n v ++ b.drop (off + n)

/-- `be16(b, off)` (R15). -/
def be16 (b : Bytes) (off : Nat) : BitVec 16 := BitVec.ofNat 16 (memRead b off 2)

/-- `enc_be(v, 2)` of a 16-bit field. -/
def enc16 (v : BitVec 16) : Bytes := encBe 2 v.toNat

/-- `zeros(n)` (R14). -/
def zeros (n : Nat) : Bytes := List.replicate n 0

/-- The bytes of a packet from its header fields (R90): preamble, CCD checksum, SCD checksum, channel
id, flags or status code, command id, SCD length, request id, and what follows the header. -/
def packetBytes (pre ccd scd chan word8 cmd len rid : BitVec 16) (rest : Bytes) : Bytes :=
  enc16 pre ++ enc16 ccd ++ enc16 scd ++ enc16 chan ++ enc16 word8 ++ enc16 cmd ++ enc16 len
    ++ enc16 rid ++ rest

end Sys2Proof.Machine
end

