-- ==== Sys2Proof/Config.lean ====
section
/-! DEFINITION. The implementation parameters (R8, R12) and the free values. -/

namespace Sys2Proof

/-- The numerals `CODE_*` of the error taxonomy (R243), 12 bits each. InvalidParameter is not among
them: its numeral is the source's (R242), see `Machine.codeInvalidParameter`. -/
structure Codes where
  success        : BitVec 12
  notImplemented : BitVec 12
  invalidAddress : BitVec 12
  writeProtect   : BitVec 12
  badAlignment   : BitVec 12
  accessDenied   : BitVec 12
  busy           : BitVec 12
  msgTimeout     : BitVec 12
  invalidHeader  : BitVec 12
  wrongConfig    : BitVec 12
  error          : BitVec 12
deriving DecidableEq, Repr

/-- The parameters of one engine (R8, R12). They are plain data and stand in `Machine.State`, so that
a statement about every state holds for every value of them (log 6). -/
structure Config where
  /-- `MAX_PAYLOAD`, 0 to 65519 (R8). -/
  maxPayload      : Fin 65520
  /-- `REQID_RESET` (D6). -/
  reqidReset      : BitVec 16
  /-- `TMO_RESET` (D21). -/
  tmoReset        : BitVec 32
  /-- `KIND_CMD_MISMATCH` (D10). -/
  kindCmdMismatch : BitVec 12
  /-- `CODE_*` (D26). -/
  codes           : Codes
deriving DecidableEq, Repr

/-- The defaults of the status numerals (R243, G1). -/
def Codes.reference : Codes :=
  { success := 0x000#12, notImplemented := 0x001#12, invalidAddress := 0x003#12
    writeProtect := 0x004#12, badAlignment := 0x005#12, accessDenied := 0x006#12
    busy := 0x007#12, msgTimeout := 0x00B#12, invalidHeader := 0x00E#12
    wrongConfig := 0x00F#12, error := 0xFFF#12 }

/-- The reference configuration: `MAX_PAYLOAD` = 64 and the defaults of R12. -/
def Config.reference : Config :=
  { maxPayload := 64, reqidReset := 0, tmoReset := 0, kindCmdMismatch := 0x002#12
    codes := Codes.reference }

/-- DESIGN CHOICE (log 5), safe: the value of byte `index` of DIN that the host did not present, at
draw number `draw`. A free value: it has no body, so nothing can be proved of it. -/
opaque Config.dinFree (draw index : Nat) : BitVec 8

end Sys2Proof
end

