-- ==== Sys2Proof/Machine/Constants.lean ====
section
/-! DEFINITION. The protocol constants of R10 and R11, the derived sizes of R9, the error taxonomy of
R243, the check numbers of R244, the refusal reasons of R245 and the result classes of R240. -/

namespace Sys2Proof.Machine

/-- `PREAMBLE` (R11). -/
def preamble : BitVec 16 := 0x0100#16
/-- `CHANNEL` (R11). -/
def channel : BitVec 16 := 0#16
/-- `FLAG_ACKREQ` (R11). -/
def flagAckReq : BitVec 16 := 0x4000#16
/-- `CMD_READMEM` (R11, R97). -/
def cmdReadMem : BitVec 16 := 0x0800#16
/-- `CMD_READMEM_ACK` (R11, R97). -/
def cmdReadMemAck : BitVec 16 := 0x0801#16
/-- `CMD_WRITEMEM` (R11, R97). -/
def cmdWriteMem : BitVec 16 := 0x0802#16
/-- `CMD_WRITEMEM_ACK` (R11, R97). -/
def cmdWriteMemAck : BitVec 16 := 0x0803#16
/-- `CMD_PENDING_ACK` (R11, R97, R98). -/
def cmdPendingAck : BitVec 16 := 0x0805#16

/-- `HDR_BYTES` (R9). -/
def hdrBytes : Nat := 16
/-- `WRACK_BYTES` (R9). -/
def wrackBytes : Nat := 20
/-- `CS_MAXLEN` (R10). -/
def csMaxLen : Nat := 65534

/-- The bytes of a ReadMem request (R93, R143). -/
def rdreqBytes : Nat := 28
/-- `PKT_MAX`, the longest packet the engine builds (R9) and the size of TXBUF (R50): a WriteMem request
with a full payload, `16 + 8 + MAX_PAYLOAD` bytes, or the ReadMem request where that is longer, which
is for a `MAX_PAYLOAD` from 0 to 3 (log 17). -/
def pktMax (c : Config) : Nat := max rdreqBytes (hdrBytes + 8 + c.maxPayload.val)
/-- `RX_MAX = PKT_MAX` (R9), the capacity of the operand `pkt` (R160): one buffer size serves both
directions (D9), 28 bytes for a `MAX_PAYLOAD` from 0 to 3 (log 17). -/
def rxMax (c : Config) : Nat := pktMax c

/-- The error bit `ST_ERROR` of a status word (R11, R92). -/
def stError (status : BitVec 16) : Bool := status.getLsbD 15
/-- The namespace bits `ST_NAMESPACE` of a status word (R11, R92); no operation reads them (R166). -/
def stNamespace (status : BitVec 16) : BitVec 2 := status.extractLsb' 13 2
/-- The code bits `ST_CODE` of a status word (R11, R92). -/
def stCode (status : BitVec 16) : BitVec 12 := status.extractLsb' 0 12

/-- `CODE_INVALID_PARAMETER`, the one numeral the source gives (R242, R243). -/
def codeInvalidParameter : BitVec 12 := 0x002#12

/-- The error taxonomy, in the source's order (R243). -/
inductive ErrorName where
  | success | notImplemented | invalidParameter | invalidAddress | writeProtected | badAlignment
  | accessDenied | busy | messageTimeout | invalidHeader | wrongConfiguration | genericError
deriving DecidableEq, Repr

/-- The 12-bit code of a taxonomy entry (R243). -/
def errorCode (c : Config) : ErrorName → BitVec 12
  | .success => c.codes.success
  | .notImplemented => c.codes.notImplemented
  | .invalidParameter => codeInvalidParameter
  | .invalidAddress => c.codes.invalidAddress
  | .writeProtected => c.codes.writeProtect
  | .badAlignment => c.codes.badAlignment
  | .accessDenied => c.codes.accessDenied
  | .busy => c.codes.busy
  | .messageTimeout => c.codes.msgTimeout
  | .invalidHeader => c.codes.invalidHeader
  | .wrongConfiguration => c.codes.wrongConfig
  | .genericError => c.codes.error

/-- A full status word: `(error << 15) | (namespace << 13) | code` (R103); bit 12 has no name (R92). -/
def statusWord (err : Bool) (ns : BitVec 2) (code : BitVec 12) : BitVec 16 :=
  BitVec.ofBool err ++ ns ++ 0#1 ++ code

/-- What can fail, one name per `step` number (R244). -/
inductive Check where
  | header | preamble | requestId | ccdChecksum | scdChecksum | commandId | scdLength
  | deviceStatus | shortPayload | timeout | longPayload
deriving DecidableEq, Repr

/-- The value of the port `step` (R244). -/
def Check.number : Check → BitVec 4
  | .header => 0
  | .preamble => 1
  | .requestId => 2
  | .ccdChecksum => 3
  | .scdChecksum => 4
  | .commandId => 5
  | .scdLength => 6
  | .deviceStatus => 7
  | .shortPayload => 8
  | .timeout => 9
  | .longPayload => 10

/-- Why an operation is refused (R245). -/
inductive Reason where
  | illegalOp | busy | noRequest | csOverlen | rxRange
deriving DecidableEq, Repr

/-- The value of the port `reason` (R245). -/
def Reason.number : Reason → BitVec 3
  | .illegalOp => 1
  | .busy => 2
  | .noRequest => 3
  | .csOverlen => 4
  | .rxRange => 5

/-- The four result classes (R240). -/
inductive ResultClass where
  | ok | err | trunc | refused
deriving DecidableEq, Repr

/-- The value of the port `rc` (R83, R240). -/
def ResultClass.number : ResultClass → BitVec 2
  | .ok => 0
  | .err => 1
  | .trunc => 2
  | .refused => 3

end Sys2Proof.Machine
end

