-- ==== Sys2Proof/Machine/State.lean ====
section
/-! DEFINITION. The state of one engine: every register of R22, the configuration, and the pins that
carry the host's and the transport's inputs in and the result ports out. -/

namespace Sys2Proof.Machine

/-- `EXPECT.KIND` (R27). -/
inductive ResponseKind where
  | none | ack | bytes | u16 | u32 | u64 | f32 | f64
deriving DecidableEq, Repr

/-- `RSYNC` (R26). -/
inductive Resync where
  | idle | awaitingFlush
deriving DecidableEq, Repr

/-- The expected-response descriptor `EXPECT` (R27). -/
structure Expect where
  kind  : ResponseKind
  count : BitVec 16
  len   : BitVec 32
deriving DecidableEq, Repr

/-- The result ports (R83) and the ports of RDST alone (R232). -/
structure ResultPorts where
  rc     : BitVec 2
  kind   : BitVec 12
  erid   : BitVec 16
  step   : BitVec 4
  reason : BitVec 3
  warn   : BitVec 1
  drain  : BitVec 1
  orid   : BitVec 16
  val    : BitVec 64
  dout   : Bytes
  olen   : BitVec 16
  adv    : BitVec 16
  tx     : Bytes
  txlen  : BitVec 16
  reqid  : BitVec 16
  busy   : BitVec 1
  rsync  : BitVec 1
  ekind  : BitVec 3
  ecount : BitVec 16
  elen   : BitVec 32
  tmo    : BitVec 32
  csacc  : BitVec 32
  csodd  : BitVec 1
  cscnt  : BitVec 16
deriving DecidableEq, Repr

/-- Every result port zero or empty: what a port that is not meaningful holds (R83). -/
def ResultPorts.zero : ResultPorts :=
  { rc := 0, kind := 0, erid := 0, step := 0, reason := 0, warn := 0, drain := 0, orid := 0
    val := 0, dout := [], olen := 0, adv := 0, tx := [], txlen := 0, reqid := 0, busy := 0
    rsync := 0, ekind := 0, ecount := 0, elen := 0, tmo := 0, csacc := 0, csodd := 0, cscnt := 0 }

/-- Where the machine stops with a fault. -/
inductive Fault where
  /-- Raised by SQ.ACK of a non-empty packet with `BUSY` = 1 and `EXPECT.KIND` = NONE, for which
  R215 gives no result. R37 (a) says that no run reaches such a state. Safe: the model stops. -/
  | expectNone
deriving DecidableEq, Repr

/-- Where the machine refuses to give a meaning. -/
inductive Refusal where
  /-- An arm of `exec` whose instruction has no meaning yet. Safe: the model stops. No arm raises it. -/
  | notModelled (mnemonic : String)
deriving DecidableEq, Repr

/-- One engine. -/
structure State where
  /-- The implementation parameters (R8, R12, log 6): fixed, no operation writes them. -/
  cfg     : Config
  /-- `REQID`, the id of the most recently issued request (R23, R24). -/
  reqid   : BitVec 16
  /-- `BUSY`, one while a request is outstanding (R25). -/
  busy    : Bool
  /-- `RSYNC` (R26). -/
  rsync   : Resync
  /-- `EXPECT` (R27). -/
  expect  : Expect
  /-- `LASTREQ`, exactly its `TXLEN` bytes (R28). -/
  lastReq : Bytes
  /-- `TMO` (R29). -/
  tmo     : BitVec 32
  /-- `CS.ACC` (R30). -/
  csAcc   : BitVec 32
  /-- `CS.ODD` (R30). -/
  csOdd   : Bool
  /-- `CS.CNT` (R30). -/
  csCnt   : BitVec 16
  /-- What the host and the transport do next, oldest first (R62, log 2): an input of the engine. -/
  pending : List Event
  /-- The counter that free values are drawn with (log 5): the model's own. -/
  draws   : Nat
  /-- The result ports of the last operation (R83, log 4): an output of the engine. -/
  out     : ResultPorts
deriving DecidableEq, Repr

/-- The expected-response descriptor after reset (R36). -/
def Expect.reset : Expect := { kind := .none, count := 0, len := 0 }

/-- One engine of the given configuration right after reset (R36), with nothing pending. -/
def State.resetOf (c : Config) : State :=
  { cfg := c, reqid := c.reqidReset, busy := false, rsync := .idle, expect := Expect.reset
    lastReq := [], tmo := c.tmoReset, csAcc := 0, csOdd := false, csCnt := 0
    pending := [], draws := 0, out := ResultPorts.zero }

/-- The machine right after reset (R36), in the reference configuration (R8, R12). -/
def State.reset : State := State.resetOf Config.reference

end Sys2Proof.Machine
end

