-- ==== Sys2Proof/Machine/Operands.lean ====
section
/-! DEFINITION. Operand forms (R82, R87, R102) and the fields of a packet (R90 to R96). -/

namespace Sys2Proof.Machine

/-- `data[N-1:0]`: the low bits of the scalar port, the upper bits ignored (R82, D28). -/
def dataLow (n : Nat) (data : BitVec 64) : BitVec n := data.setWidth n

/-- A scalar payload on the `data` port, zero-extended. -/
def dataPort {n : Nat} (v : BitVec n) : BitVec 64 := v.setWidth 64

/-- The payload bytes of a scalar of `w` bytes: `enc_be(v, w)` (R102). A float is its bit pattern
(R55, R147), so it takes the same path. -/
def scalarPayload (w : Nat) {n : Nat} (v : BitVec n) : Bytes := encBe w v.toNat

/-- `din[0..cnt)` (R144, R209). A byte below `cnt` that the host did not present, against R82, is a
free value (log 5). -/
def dinBytes (draw : Nat) (cnt : BitVec 16) (din : Bytes) : Bytes :=
  if cnt.toNat ≤ din.length then din.take cnt.toNat
  else din ++ (List.range (cnt.toNat - din.length)).map
    (fun k => Config.dinFree draw (din.length + k))

/-- `preamble`, packet bytes 0 and 1 (R90). -/
def pktPreamble (p : Bytes) : BitVec 16 := be16 p 0
/-- `ccdChecksum`, packet bytes 2 and 3 (R90). -/
def pktCcd (p : Bytes) : BitVec 16 := be16 p 2
/-- `scdChecksum`, packet bytes 4 and 5 (R90). -/
def pktScd (p : Bytes) : BitVec 16 := be16 p 4
/-- `channelId`, packet bytes 6 and 7 (R90). -/
def pktChannel (p : Bytes) : BitVec 16 := be16 p 6
/-- `flags` of a request or `statusCode` of an acknowledgement, packet bytes 8 and 9 (R90 to R92). -/
def pktWord8 (p : Bytes) : BitVec 16 := be16 p 8
/-- `commandId`, packet bytes 10 and 11 (R90, R97). -/
def pktCommand (p : Bytes) : BitVec 16 := be16 p 10
/-- `scdLength`, packet bytes 12 and 13 (R90). -/
def pktLen (p : Bytes) : BitVec 16 := be16 p 12
/-- `requestId`, packet bytes 14 and 15 (R90). -/
def pktRid (p : Bytes) : BitVec 16 := be16 p 14

/-- The range of the CCD checksum: bytes 6 to 15 (R101). -/
def ccdRange (p : Bytes) : Bytes := slice p 6 16
/-- The range of the SCD checksum: bytes 6 to 15 + scdLength (R101). -/
def scdRange (p : Bytes) : Bytes := slice p 6 (16 + (pktLen p).toNat)

/-- `regAddr` of a request, bytes 16 to 23 (R93, R94). -/
def reqAddr (p : Bytes) : BitVec 64 := BitVec.ofNat 64 (memRead p 16 8)
/-- The reserved word of a ReadMem request, bytes 24 and 25 (R93). -/
def reqReserved (p : Bytes) : BitVec 16 := be16 p 24
/-- `readSize` of a ReadMem request, bytes 26 and 27 (R93). -/
def reqReadSize (p : Bytes) : BitVec 16 := be16 p 26
/-- The payload of a WriteMem request, from byte 24 (R94). -/
def reqPayload (p : Bytes) : Bytes := slice p 24 (16 + (pktLen p).toNat)
/-- The payload of a ReadMem acknowledgement, from byte 16 (R95). -/
def ackPayload (p : Bytes) : Bytes := slice p 16 (16 + (pktLen p).toNat)
/-- The reserved word of a WriteMem acknowledgement, bytes 16 and 17 (R96): no operation reads it. -/
def ackReserved (p : Bytes) : BitVec 16 := be16 p 16
/-- `lengthWritten` of a WriteMem acknowledgement, bytes 18 and 19 (R96): no operation reads it. -/
def ackLengthWritten (p : Bytes) : BitVec 16 := be16 p 18

end Sys2Proof.Machine
end

