-- ==== Sys2Proof/Syntax.lean ====
section
/-! DEFINITION. One constructor per row of spec/opcode_table.json: 35 operations with their operand
ports (R84, R87) and 5 packet formats (R90 to R98). -/

namespace Sys2Proof

/-- The rows of the opcode table. An operation carries the operands R87 names for it; a scalar
payload has the width of its type (R82). A packet row (log 1) carries the header fields its pattern
leaves free (R104) and every byte after the 16-byte header. -/
inductive Instr where
  -- control (R230 to R232)
  | srst
  | wrtmo (tmo : BitVec 32)
  | rdst
  -- checksum engine, byte-serial (R125 to R127)
  | csClr
  | csPut (x : Byte)
  | csGet
  -- build a request (R143 to R150)
  | bldRd (rid : BitVec 16) (addr : BitVec 64) (cnt : BitVec 16)
  | bldWrB (rid : BitVec 16) (addr : BitVec 64) (cnt : BitVec 16) (din : Bytes)
  | bldWrU16 (rid : BitVec 16) (addr : BitVec 64) (data : BitVec 16)
  | bldWrU32 (rid : BitVec 16) (addr : BitVec 64) (data : BitVec 32)
  | bldWrU64 (rid : BitVec 16) (addr : BitVec 64) (data : BitVec 64)
  | bldWrF32 (rid : BitVec 16) (addr : BitVec 64) (data : BitVec 32)
  | bldWrF64 (rid : BitVec 16) (addr : BitVec 64) (data : BitVec 64)
  -- validate an acknowledgement (R164, R165)
  | valRd (pkt : Bytes) (rid : BitVec 16)
  | valWr (pkt : Bytes) (rid : BitVec 16)
  -- extract a typed value (R183 to R188)
  | extB (pkt : Bytes) (rid : BitVec 16) (cap : BitVec 16)
  | extU16 (pkt : Bytes) (rid : BitVec 16)
  | extU32 (pkt : Bytes) (rid : BitVec 16)
  | extU64 (pkt : Bytes) (rid : BitVec 16)
  | extF32 (pkt : Bytes) (rid : BitVec 16)
  | extF64 (pkt : Bytes) (rid : BitVec 16)
  -- issue a read (R203 to R208)
  | sqRdB (addr : BitVec 64) (cnt : BitVec 16)
  | sqRdU16 (addr : BitVec 64)
  | sqRdU32 (addr : BitVec 64)
  | sqRdU64 (addr : BitVec 64)
  | sqRdF32 (addr : BitVec 64)
  | sqRdF64 (addr : BitVec 64)
  -- issue a write (R209 to R214)
  | sqWrB (addr : BitVec 64) (cnt : BitVec 16) (din : Bytes)
  | sqWrU16 (addr : BitVec 64) (data : BitVec 16)
  | sqWrU32 (addr : BitVec 64) (data : BitVec 32)
  | sqWrU64 (addr : BitVec 64) (data : BitVec 64)
  | sqWrF32 (addr : BitVec 64) (data : BitVec 32)
  | sqWrF64 (addr : BitVec 64) (data : BitVec 64)
  -- complete a request (R215, R216)
  | sqAck (pkt : Bytes) (cap : BitVec 16)
  | sqTmo
  -- packets that arrive in RXBUF (R93 to R98)
  | pktReadmemReq (ccd scd rid : BitVec 16) (rest : Bytes)
  | pktWritememReq (ccd scd len rid : BitVec 16) (rest : Bytes)
  | pktReadmemAck (ccd scd chan status len rid : BitVec 16) (rest : Bytes)
  | pktWritememAck (ccd scd chan status len rid : BitVec 16) (rest : Bytes)
  | pktPendingAck (ccd scd chan status len rid : BitVec 16) (rest : Bytes)
deriving DecidableEq, Repr

end Sys2Proof
end

