-- ==== Sys2Proof/Decode.lean ====
section
/-! DEFINITION. The decoder, total on every event, and the encoder (R81, R84, R85, R87, R90 to R104). -/

namespace Sys2Proof

open Machine

/-- What the decoder reads. -/
inductive Decoded where
  | instr (i : Instr)
  /-- A reserved opcode (R85). -/
  | reservedOp (op : BitVec 8)
  /-- Bytes that match no packet pattern of R104. They still arrive in RXBUF. -/
  | unknownPacket
  /-- The reset input (R270), no instruction. -/
  | resetInput
deriving DecidableEq, Repr

/-- The operation an issue stands for (R84, R87). A port that R87 does not name for the operation is
not read. -/
def decodeOp (p : Ports) : Decoded :=
  match p.op.toNat with
  | 0x01 => .instr .srst
  | 0x02 => .instr (.wrtmo p.tmo)
  | 0x03 => .instr .rdst
  | 0x10 => .instr .csClr
  | 0x11 => .instr (.csPut (dataLow 8 p.data))
  | 0x12 => .instr .csGet
  | 0x20 => .instr (.bldRd p.rid p.addr p.cnt)
  | 0x28 => .instr (.bldWrB p.rid p.addr p.cnt p.din)
  | 0x29 => .instr (.bldWrU16 p.rid p.addr (dataLow 16 p.data))
  | 0x2A => .instr (.bldWrU32 p.rid p.addr (dataLow 32 p.data))
  | 0x2B => .instr (.bldWrU64 p.rid p.addr (dataLow 64 p.data))
  | 0x2C => .instr (.bldWrF32 p.rid p.addr (dataLow 32 p.data))
  | 0x2D => .instr (.bldWrF64 p.rid p.addr (dataLow 64 p.data))
  | 0x30 => .instr (.valRd p.pkt p.rid)
  | 0x31 => .instr (.valWr p.pkt p.rid)
  | 0x40 => .instr (.extB p.pkt p.rid p.cap)
  | 0x41 => .instr (.extU16 p.pkt p.rid)
  | 0x42 => .instr (.extU32 p.pkt p.rid)
  | 0x43 => .instr (.extU64 p.pkt p.rid)
  | 0x44 => .instr (.extF32 p.pkt p.rid)
  | 0x45 => .instr (.extF64 p.pkt p.rid)
  | 0x50 => .instr (.sqRdB p.addr p.cnt)
  | 0x51 => .instr (.sqRdU16 p.addr)
  | 0x52 => .instr (.sqRdU32 p.addr)
  | 0x53 => .instr (.sqRdU64 p.addr)
  | 0x54 => .instr (.sqRdF32 p.addr)
  | 0x55 => .instr (.sqRdF64 p.addr)
  | 0x58 => .instr (.sqWrB p.addr p.cnt p.din)
  | 0x59 => .instr (.sqWrU16 p.addr (dataLow 16 p.data))
  | 0x5A => .instr (.sqWrU32 p.addr (dataLow 32 p.data))
  | 0x5B => .instr (.sqWrU64 p.addr (dataLow 64 p.data))
  | 0x5C => .instr (.sqWrF32 p.addr (dataLow 32 p.data))
  | 0x5D => .instr (.sqWrF64 p.addr (dataLow 64 p.data))
  | 0x5E => .instr (.sqAck p.pkt p.cap)
  | 0x5F => .instr .sqTmo
  | _ => .reservedOp p.op

/-- The packet row whose pattern the 16 header bytes match (R104). Nothing else of the packet is
looked at: a packet with wrong checksums or a wrong length is still a packet of its row. -/
def decodePacket (b : Bytes) : Decoded :=
  if b.length < hdrBytes ∨ pktPreamble b ≠ preamble then .unknownPacket
  else if pktCommand b = cmdReadMem ∧ pktChannel b = channel ∧ pktWord8 b = flagAckReq
      ∧ pktLen b = 12 then
    .instr (.pktReadmemReq (pktCcd b) (pktScd b) (pktRid b) (b.drop 16))
  else if pktCommand b = cmdWriteMem ∧ pktChannel b = channel ∧ pktWord8 b = flagAckReq then
    .instr (.pktWritememReq (pktCcd b) (pktScd b) (pktLen b) (pktRid b) (b.drop 16))
  else if pktCommand b = cmdReadMemAck then
    .instr (.pktReadmemAck (pktCcd b) (pktScd b) (pktChannel b) (pktWord8 b) (pktLen b) (pktRid b)
      (b.drop 16))
  else if pktCommand b = cmdWriteMemAck then
    .instr (.pktWritememAck (pktCcd b) (pktScd b) (pktChannel b) (pktWord8 b) (pktLen b) (pktRid b)
      (b.drop 16))
  else if pktCommand b = cmdPendingAck then
    .instr (.pktPendingAck (pktCcd b) (pktScd b) (pktChannel b) (pktWord8 b) (pktLen b) (pktRid b)
      (b.drop 16))
  else .unknownPacket

/-- The decoder. -/
def decode (e : Event) : Decoded :=
  match e with
  | .issue p => decodeOp p
  | .receive b => decodePacket b
  | .reset => .resetInput

/-- The instruction of a decoded event, if it is one. -/
def Decoded.instr? : Decoded → Option Instr
  | .instr i => some i
  | .reservedOp _ => none
  | .unknownPacket => none
  | .resetInput => none

/-- The event that stands for an instruction, written from the opcode map (R84), the operand table
(R87) and the packet patterns (R104). Ports that R87 does not name are zero. -/
def encode : Instr → Event
  | .srst => .issue (Ports.ofOp 0x01#8)
  | .wrtmo tmo => .issue { Ports.ofOp 0x02#8 with tmo := tmo }
  | .rdst => .issue (Ports.ofOp 0x03#8)
  | .csClr => .issue (Ports.ofOp 0x10#8)
  | .csPut data => .issue { Ports.ofOp 0x11#8 with data := dataPort data }
  | .csGet => .issue (Ports.ofOp 0x12#8)
  | .bldRd rid addr cnt => .issue { Ports.ofOp 0x20#8 with rid := rid, addr := addr, cnt := cnt }
  | .bldWrB rid addr cnt din =>
    .issue { Ports.ofOp 0x28#8 with rid := rid, addr := addr, cnt := cnt, din := din }
  | .bldWrU16 rid addr data =>
    .issue { Ports.ofOp 0x29#8 with rid := rid, addr := addr, data := dataPort data }
  | .bldWrU32 rid addr data =>
    .issue { Ports.ofOp 0x2A#8 with rid := rid, addr := addr, data := dataPort data }
  | .bldWrU64 rid addr data =>
    .issue { Ports.ofOp 0x2B#8 with rid := rid, addr := addr, data := dataPort data }
  | .bldWrF32 rid addr data =>
    .issue { Ports.ofOp 0x2C#8 with rid := rid, addr := addr, data := dataPort data }
  | .bldWrF64 rid addr data =>
    .issue { Ports.ofOp 0x2D#8 with rid := rid, addr := addr, data := dataPort data }
  | .valRd pkt rid => .issue { Ports.ofOp 0x30#8 with rid := rid, pkt := pkt }
  | .valWr pkt rid => .issue { Ports.ofOp 0x31#8 with rid := rid, pkt := pkt }
  | .extB pkt rid cap => .issue { Ports.ofOp 0x40#8 with rid := rid, pkt := pkt, cap := cap }
  | .extU16 pkt rid => .issue { Ports.ofOp 0x41#8 with rid := rid, pkt := pkt }
  | .extU32 pkt rid => .issue { Ports.ofOp 0x42#8 with rid := rid, pkt := pkt }
  | .extU64 pkt rid => .issue { Ports.ofOp 0x43#8 with rid := rid, pkt := pkt }
  | .extF32 pkt rid => .issue { Ports.ofOp 0x44#8 with rid := rid, pkt := pkt }
  | .extF64 pkt rid => .issue { Ports.ofOp 0x45#8 with rid := rid, pkt := pkt }
  | .sqRdB addr cnt => .issue { Ports.ofOp 0x50#8 with addr := addr, cnt := cnt }
  | .sqRdU16 addr => .issue { Ports.ofOp 0x51#8 with addr := addr }
  | .sqRdU32 addr => .issue { Ports.ofOp 0x52#8 with addr := addr }
  | .sqRdU64 addr => .issue { Ports.ofOp 0x53#8 with addr := addr }
  | .sqRdF32 addr => .issue { Ports.ofOp 0x54#8 with addr := addr }
  | .sqRdF64 addr => .issue { Ports.ofOp 0x55#8 with addr := addr }
  | .sqWrB addr cnt din => .issue { Ports.ofOp 0x58#8 with addr := addr, cnt := cnt, din := din }
  | .sqWrU16 addr data => .issue { Ports.ofOp 0x59#8 with addr := addr, data := dataPort data }
  | .sqWrU32 addr data => .issue { Ports.ofOp 0x5A#8 with addr := addr, data := dataPort data }
  | .sqWrU64 addr data => .issue { Ports.ofOp 0x5B#8 with addr := addr, data := dataPort data }
  | .sqWrF32 addr data => .issue { Ports.ofOp 0x5C#8 with addr := addr, data := dataPort data }
  | .sqWrF64 addr data => .issue { Ports.ofOp 0x5D#8 with addr := addr, data := dataPort data }
  | .sqAck pkt cap => .issue { Ports.ofOp 0x5E#8 with pkt := pkt, cap := cap }
  | .sqTmo => .issue (Ports.ofOp 0x5F#8)
  | .pktReadmemReq ccd scd rid rest =>
    .receive (packetBytes preamble ccd scd channel flagAckReq cmdReadMem 12 rid rest)
  | .pktWritememReq ccd scd len rid rest =>
    .receive (packetBytes preamble ccd scd channel flagAckReq cmdWriteMem len rid rest)
  | .pktReadmemAck ccd scd chan status len rid rest =>
    .receive (packetBytes preamble ccd scd chan status cmdReadMemAck len rid rest)
  | .pktWritememAck ccd scd chan status len rid rest =>
    .receive (packetBytes preamble ccd scd chan status cmdWriteMemAck len rid rest)
  | .pktPendingAck ccd scd chan status len rid rest =>
    .receive (packetBytes preamble ccd scd chan status cmdPendingAck len rid rest)

/-- The longest tail of a packet in the reference configuration, `PKT_MAX - 16` bytes. -/
def maxTail : Nat := 72

/-- The event of a table word. An operation word of 8 bits is the opcode, every operand port zero or
empty. A packet word of 128 bits is the 16 header bytes, byte 0 most significant (R104), followed by
as many zero bytes as its SCD length advertises, up to the longest packet (log 11). -/
def tableEvent (nbits w : Nat) : Event :=
  if nbits = 128 then
    .receive (encBe 16 w ++ zeros (min (pktLen (encBe 16 w)).toNat maxTail))
  else .issue (Ports.ofOp (BitVec.ofNat 8 w))

/-- The instruction the decoder reads from an instruction whose bits are `w`, numbered as
spec/opcode_table.json numbers them. -/
def decodeTableWord (nbits w : Nat) : Option Instr := (decode (tableEvent nbits w)).instr?

end Sys2Proof
end

