-- ==== Sys2Proof/Machine/Checksum.lean ====
section
/-! DEFINITION. The function `checksum16` (R120 to R124): a ones'-complement sum of big-endian 16-bit
words. -/

namespace Sys2Proof.Machine

/-- The sum of the big-endian 16-bit words of a byte sequence, a last unpaired byte counting as the
high byte of a word (R120). R120 allows the accumulator to be held as a mathematical integer. -/
def sumWords : Bytes → Nat
  | [] => 0
  | [h] => h.toNat * 256
  | h :: l :: rest => (h.toNat * 256 + l.toNat) + sumWords rest

/-- The fold loop `while (acc >> 16) != 0: acc := (acc & 0xFFFF) + (acc >> 16)`, at most `fuel` times
round. -/
def foldCarry : Nat → Nat → Nat
  | 0, acc => acc
  | fuel + 1, acc => if acc / 65536 = 0 then acc else foldCarry fuel (acc % 65536 + acc / 65536)

/-- The folded and complemented sum. The loop "runs at most twice" on a 32-bit accumulator (R120), so
two rounds are the whole loop; `Laws.foldCarry_lt` says that no carry is left. -/
def finish (acc : Nat) : BitVec 16 := ~~~ (BitVec.ofNat 16 (foldCarry 2 acc))

/-- `checksum16(b)` (R120): no value above `CS_MAXLEN` bytes (R121, U1). -/
def checksum16 (b : Bytes) : Option (BitVec 16) :=
  if b.length ≤ csMaxLen then some (finish (sumWords b)) else none

end Sys2Proof.Machine
end

