-- ==== Sys2Proof/Machine/Flags.lean ====
section
/-! DEFINITION. The one-bit state and the one-bit outputs (R32): `CS.ODD`, `warn`, `drain`, and the
encodings of the enumerated registers. -/

namespace Sys2Proof.Machine

/-- The encoding of `EXPECT.KIND` (R27). -/
def kindBits : ResponseKind → BitVec 3
  | .none => 0
  | .ack => 1
  | .bytes => 2
  | .u16 => 3
  | .u32 => 4
  | .u64 => 5
  | .f32 => 6
  | .f64 => 7

/-- The encoding of `RSYNC` (R26). -/
def rsyncBits : Resync → BitVec 1
  | .idle => 0
  | .awaitingFlush => 1

/-- `CS.ODD ^ 1` (R126). -/
def oddNext (odd : Bool) : Bool := !odd

/-- What CS.PUT adds to `CS.ACC`: the byte as the high byte of a word, or as the low one (R126). -/
def putAddend (odd : Bool) (x : Byte) : BitVec 32 :=
  if odd then x.setWidth 32 else x.setWidth 32 <<< 8

/-- `warn`: a write acknowledgement carries another request id than the expected one (R163). It is
read only where steps 0 and 1 have passed. -/
def warnFlag (isRead : Bool) (pkt : Bytes) (exp : BitVec 16) : Bool :=
  !isRead && (pktRid pkt != exp)

/-- `drain`: the transport must discard its input before it sends (R202). -/
def drainFlag (r : Resync) : Bool :=
  match r with
  | .idle => false
  | .awaitingFlush => true

end Sys2Proof.Machine
end

