-- ==== Sys2Proof/Machine/Results.lean ====
section
/-! DEFINITION. The results an operation returns, as the result ports show them (R83, R240). -/

namespace Sys2Proof.Machine

/-- `Ok{}`. -/
def okResult : ResultPorts := { ResultPorts.zero with rc := ResultClass.ok.number }

/-- `Ok{}` with the bit `warn` (R163). -/
def okWarn (warn : Bool) : ResultPorts := { okResult with warn := BitVec.ofBool warn }

/-- `Ok{val}`. -/
def okVal (v : BitVec 64) : ResultPorts := { okResult with val := v }

/-- `Ok{tx, txlen}`. `txlen` has 16 bits (R83, log 9). -/
def okTx (p : Bytes) : ResultPorts :=
  { okResult with tx := p, txlen := BitVec.ofNat 16 p.length }

/-- `Ok{tx, txlen, orid, drain}` of an issue (R201). -/
def okIssue (p : Bytes) (rid : BitVec 16) (drain : Bool) : ResultPorts :=
  { okTx p with orid := rid, drain := BitVec.ofBool drain }

/-- `Ok{dout, olen, adv}` of a byte-buffer extraction (R181). -/
def okDout (d : Bytes) (olen adv : BitVec 16) : ResultPorts :=
  { okResult with dout := d, olen := olen, adv := adv }

/-- `Trunc{dout, olen, adv}` (R181). -/
def truncDout (d : Bytes) (olen adv : BitVec 16) : ResultPorts :=
  { okDout d olen adv with rc := ResultClass.trunc.number }

/-- `Err{kind, requestId, step}` (R241, R244). -/
def errResult (kind : BitVec 12) (rid : BitVec 16) (c : Check) : ResultPorts :=
  { ResultPorts.zero with
    rc := ResultClass.err.number, kind := kind, erid := rid, step := c.number }

/-- `Err` with the bit `warn` (R163). -/
def errWarn (kind : BitVec 12) (rid : BitVec 16) (c : Check) (warn : Bool) : ResultPorts :=
  { errResult kind rid c with warn := BitVec.ofBool warn }

/-- `Err` of a failed issue, with `orid` (R201). -/
def errIssue (rid : BitVec 16) : ResultPorts :=
  { errResult codeInvalidParameter rid .longPayload with orid := rid }

/-- `Refused{reason}` (R245). -/
def refusedResult (r : Reason) : ResultPorts :=
  { ResultPorts.zero with rc := ResultClass.refused.number, reason := r.number }

/-- The result of RDST (R232): every register of R22. -/
def stateResult (s : State) : ResultPorts :=
  { okTx s.lastReq with
    reqid := s.reqid, busy := BitVec.ofBool s.busy, rsync := rsyncBits s.rsync
    ekind := kindBits s.expect.kind, ecount := s.expect.count, elen := s.expect.len
    tmo := s.tmo, csacc := s.csAcc, csodd := BitVec.ofBool s.csOdd, cscnt := s.csCnt }

/-- The result class is `Err` or `Trunc`: the failures that owe a drain in SQ.ACK (R215). -/
def failedResult (r : ResultPorts) : Bool :=
  r.rc == ResultClass.err.number || r.rc == ResultClass.trunc.number

end Sys2Proof.Machine
end

