-- ==== Sys2Proof/Machine/Codec.lean ====
section
/-! DEFINITION. The Packet Codec: framing (R142), validation (R161) and extraction (R181). -/

namespace Sys2Proof.Machine

/-- `frame(word8, cmd, rid, scd)` (R142). No packet where `checksum16` has no value, which only a
`MAX_PAYLOAD` above 65516 allows (log 8). -/
def frame (word8 cmd rid : BitVec 16) (scd : Bytes) : Option Bytes :=
  let body := enc16 channel ++ enc16 word8 ++ enc16 cmd ++ enc16 (BitVec.ofNat 16 scd.length)
    ++ enc16 rid
  match checksum16 body, checksum16 (body ++ scd) with
  | some ccd, some sc => some (enc16 preamble ++ enc16 ccd ++ enc16 sc ++ body ++ scd)
  | _, _ => none

/-- `build_read(rid, addr, n)` (R142, R93). -/
def buildRead (rid : BitVec 16) (addr : BitVec 64) (n : BitVec 16) : Option Bytes :=
  frame flagAckReq cmdReadMem rid (encBe 8 addr.toNat ++ enc16 0 ++ enc16 n)

/-- `build_write(rid, addr, payload)` (R142, R94): it fails when the payload is longer than
`MAX_PAYLOAD`. -/
def buildWrite (c : Config) (rid : BitVec 16) (addr : BitVec 64) (payload : Bytes) :
    Option Bytes :=
  if c.maxPayload.val < payload.length then none
  else frame flagAckReq cmdWriteMem rid (encBe 8 addr.toNat ++ payload)

/-- `build_write` of `din[0..cnt)`: the size test comes first, and DIN is not read when it fails
(R144). -/
def buildWriteDin (c : Config) (draw : Nat) (rid : BitVec 16) (addr : BitVec 64)
    (cnt : BitVec 16) (din : Bytes) : Option Bytes :=
  if c.maxPayload.val < cnt.toNat then none
  else buildWrite c rid addr (dinBytes draw cnt din)

/-- The result of `validate` (R161). -/
inductive Verdict where
  | pass (warn : Bool)
  | fail (kind : BitVec 12) (c : Check) (warn : Bool)
deriving DecidableEq, Repr

/-- The acknowledgement command id that validation expects (R161 step 5). -/
def ackCommand (isRead : Bool) : BitVec 16 := if isRead then cmdReadMemAck else cmdWriteMemAck

/-- `validate(pkt, exp, isRead)` (R161): the checks in the source's order, the first that fails ends
it. A range on which `checksum16` has no value equals no stored checksum (log 8). -/
def validate (c : Config) (pkt : Bytes) (exp : BitVec 16) (isRead : Bool) : Verdict :=
  if pkt.length < hdrBytes then .fail codeInvalidParameter .header false
  else if pktPreamble pkt ≠ preamble then .fail codeInvalidParameter .preamble false
  else if isRead = true ∧ pktRid pkt ≠ exp then .fail codeInvalidParameter .requestId false
  else
    let warn := warnFlag isRead pkt exp
    if checksum16 (ccdRange pkt) ≠ some (pktCcd pkt) then
      .fail codeInvalidParameter .ccdChecksum warn
    else if pkt.length < 16 + (pktLen pkt).toNat then
      .fail codeInvalidParameter .scdChecksum warn
    else if checksum16 (scdRange pkt) ≠ some (pktScd pkt) then
      .fail codeInvalidParameter .scdChecksum warn
    else if pktCommand pkt ≠ ackCommand isRead then .fail c.kindCmdMismatch .commandId warn
    else if c.maxPayload.val < (pktLen pkt).toNat then
      .fail codeInvalidParameter .scdLength warn
    else if stError (pktWord8 pkt) = true then
      .fail (stCode (pktWord8 pkt)) .deviceStatus warn
    else .pass warn

/-- The result of a validation operation (R164, R165): the error carries the expected id (R167). -/
def verdictResult (exp : BitVec 16) : Verdict → ResultPorts
  | .pass warn => okWarn warn
  | .fail kind c warn => errWarn kind exp c warn

/-- `extract_scalar(pkt, exp, W)` (R181, R182). -/
def extractScalar (c : Config) (pkt : Bytes) (exp : BitVec 16) (w : Nat) : ResultPorts :=
  match validate c pkt exp true with
  | .fail kind k _ => errResult kind exp k
  | .pass _ =>
    if (pktLen pkt).toNat < w then errResult codeInvalidParameter exp .shortPayload
    else okVal (BitVec.ofNat 64 (memRead pkt 16 w))

/-- `extract_bytes(pkt, exp, cap)` (R181). -/
def extractBytes (c : Config) (pkt : Bytes) (exp : BitVec 16) (cap : BitVec 16) : ResultPorts :=
  match validate c pkt exp true with
  | .fail kind k _ => errResult kind exp k
  | .pass _ =>
    let m := min (pktLen pkt).toNat cap.toNat
    let d := slice pkt 16 (16 + m)
    if cap.toNat < (pktLen pkt).toNat then truncDout d (BitVec.ofNat 16 m) (pktLen pkt)
    else okDout d (pktLen pkt) (pktLen pkt)

end Sys2Proof.Machine
end

