-- ==== Sys2Proof/Machine/Ops.lean ====
section
/-! DEFINITION. The named operations over the state that the meanings share: returning a result,
failure entry and return (R248, R249), build (R140, R141), issue (R201), completion (R215, R216),
reset (R36) and the arrival of a packet (R50). -/

namespace Sys2Proof.Machine

/-- The outcome of a step of one engine. -/
abbrev Out := Host.Outcome State Fault Refusal

/-- Return a result on the ports. -/
def State.respond (s : State) (r : ResultPorts) : State := { s with out := r }

/-- The operation ends with the result `r` in state `s`. -/
def done (s : State) (r : ResultPorts) : Out := .next (s.respond r)

/-- The operation is refused: no register changes (R245). -/
def refuse (s : State) (r : Reason) : Out := done s (refusedResult r)

/-- Read one byte of TXBUF: nothing at index `TXLEN` and above (R28). -/
def State.txByte (s : State) (i : Nat) : Option Byte := s.lastReq[i]?

/-- Store a packet as `LASTREQ`, whole (R28). -/
def State.storeReq (s : State) (p : Bytes) : State := { s with lastReq := p }

/-- The next request id (R24): `(REQID + 1) mod 2^16`. -/
def nextId (s : State) : BitVec 16 := s.reqid + 1

/-- Advance the request-id counter (R24). -/
def State.bumpId (s : State) : State := { s with reqid := nextId s }

/-- FAILURE ENTRY (R248), the engine's exception entry: the request is over and a drain is owed.
Nothing is saved and nothing is vectored. -/
def State.failEntry (s : State) : State := { s with busy := false, rsync := .awaitingFlush }

/-- FAILURE RETURN (R249): the drain is handed to the transport and the state is Idle again. -/
def State.failReturn (s : State) : State := { s with rsync := .idle }

/-- The request is over without a failure (R215). -/
def State.closeRequest (s : State) : State := { s with busy := false }

/-- The request is over by a timeout (R216): a failure entry if a timeout was configured. -/
def State.timeoutEntry (s : State) : State :=
  if s.tmo = 0 then s.closeRequest else s.failEntry

/-- A request is outstanding: the packet is stored, the expectation recorded, the drain handed over
(R201, R202). -/
def State.openRequest (s : State) (p : Bytes) (e : Expect) : State :=
  { (s.storeReq p).failReturn with expect := e, busy := true }

/-- Every register of R22 at its reset value (R36, R271). The configuration, the pins and the model's
own fields are not registers and stay. -/
def State.resetRegisters (s : State) : State :=
  { s with
    reqid := s.cfg.reqidReset, busy := false, rsync := .idle, expect := Expect.reset
    lastReq := [], tmo := s.cfg.tmoReset, csAcc := 0, csOdd := false, csCnt := 0 }

/-- The reset input, applied and released (R270). No operation returned, so every result port is
zero (log 12). -/
def State.resetInput (s : State) : State := s.resetRegisters.respond ResultPorts.zero

/-- Received bytes stand in RXBUF for the operation issued next: they are its operand `pkt` (R50, R82,
log 1). An operation that is not the next event does not find them, since RXBUF is not kept (R50). -/
def presentTo (b : Bytes) : List Event → List Event
  | .issue p :: rest => .issue { p with pkt := b } :: rest
  | [] => []
  | .receive c :: rest => .receive c :: rest
  | .reset :: rest => .reset :: rest

/-- A packet arrives in RXBUF (R50, R62, log 1): no register changes, no operation returns and the
engine keeps nothing of it. -/
def State.present (s : State) (b : Bytes) : State := { s with pending := presentTo b s.pending }

/-- The checksum registers cleared (R125). -/
def State.clearCs (s : State) : State := { s with csAcc := 0, csOdd := false, csCnt := 0 }

/-- One byte put into the checksum registers (R126). -/
def State.putCs (s : State) (x : Byte) : State :=
  { s with
    csAcc := s.csAcc + putAddend s.csOdd x, csOdd := oddNext s.csOdd, csCnt := s.csCnt + 1 }

/-- The common form of BLD.* (R140, R141, R144): refused while a request is outstanding; a failed
build changes no register. -/
def build (s : State) (rid : BitVec 16) (packet : Option Bytes) : Out :=
  if s.busy then refuse s .busy
  else
    match packet with
    | none => done s (errResult codeInvalidParameter rid .longPayload)
    | some p => done (s.storeReq p) (okTx p)

/-- The common form of SQ.RD.* and SQ.WR.* (R200, R201, R202, R217). -/
def issue (s : State) (packet : BitVec 16 → Option Bytes) (e : Expect) : Out :=
  if s.busy then refuse s .busy
  else
    match packet (nextId s) with
    | none => done s.bumpId (errIssue (nextId s))
    | some p => done (s.bumpId.openRequest p e) (okIssue p (nextId s) (drainFlag s.rsync))

/-- `EXPECT` of a read of `n` bytes (R27, R203). -/
def expectRead (kind : ResponseKind) (count : BitVec 16) (n : Nat) : Expect :=
  { kind := kind, count := count, len := BitVec.ofNat 32 (hdrBytes + n) }

/-- `EXPECT` of a write (R27, R209). -/
def expectAck : Expect := { kind := .ack, count := 0, len := BitVec.ofNat 32 wrackBytes }

/-- SQ.TMO (R216), also SQ.ACK of an empty packet (R215). -/
def timeout (s : State) : Out :=
  if s.busy then
    done s.timeoutEntry (errResult s.cfg.codes.msgTimeout s.reqid .timeout)
  else refuse s .noRequest

/-- What SQ.ACK finds in a packet, by the expected kind (R215); R215 has no case for NONE. -/
def judge (s : State) (pkt : Bytes) (cap : BitVec 16) : Option ResultPorts :=
  match s.expect.kind with
  | .none => none
  | .ack => some (verdictResult s.reqid (validate s.cfg pkt s.reqid false))
  | .bytes => some (extractBytes s.cfg pkt s.reqid cap)
  | .u16 => some (extractScalar s.cfg pkt s.reqid 2)
  | .u32 => some (extractScalar s.cfg pkt s.reqid 4)
  | .u64 => some (extractScalar s.cfg pkt s.reqid 8)
  | .f32 => some (extractScalar s.cfg pkt s.reqid 4)
  | .f64 => some (extractScalar s.cfg pkt s.reqid 8)

/-- The request ends with the result `r`: `Err` and `Trunc` enter the failure (R215, R248). -/
def complete (s : State) (r : ResultPorts) : Out :=
  if failedResult r then done s.failEntry r else done s.closeRequest r

/-- SQ.ACK (R215). -/
def acknowledge (s : State) (pkt : Bytes) (cap : BitVec 16) : Out :=
  if s.busy = false then refuse s .noRequest
  else if rxMax s.cfg < pkt.length then refuse s .rxRange
  else if pkt = [] then timeout s
  else
    match judge s pkt cap with
    | none => .fault .expectNone
    | some r => complete s r

/-- The common form of VAL.* and EXT.* (R160, R167): a packet above `RX_MAX` is refused, and no
register is written on any outcome. -/
def inspect (s : State) (pkt : Bytes) (r : ResultPorts) : Out :=
  if rxMax s.cfg < pkt.length then refuse s .rxRange else done s r

end Sys2Proof.Machine
end

