-- ==== Sys2Proof/Machine/Build.lean ====
section
/-! DEFINITION. The build family: BLD.RD and BLD.WR.*. -/

namespace Sys2Proof.Machine

/-- BLD.RD (R143): `cnt` is not compared with `MAX_PAYLOAD`. -/
def execBldRd (rid : BitVec 16) (addr : BitVec 64) (cnt : BitVec 16) (s : State) : Out :=
  build s rid (buildRead rid addr cnt)

/-- BLD.WR.B (R144). -/
def execBldWrB (rid : BitVec 16) (addr : BitVec 64) (cnt : BitVec 16) (din : Bytes) (s : State) :
    Out :=
  build s rid (buildWriteDin s.cfg s.draws rid addr cnt din)

/-- BLD.WR.U16 (R145, R153). -/
def execBldWrU16 (rid : BitVec 16) (addr : BitVec 64) (data : BitVec 16) (s : State) : Out :=
  build s rid (buildWrite s.cfg rid addr (scalarPayload 2 data))

/-- BLD.WR.U32 (R146, R153). -/
def execBldWrU32 (rid : BitVec 16) (addr : BitVec 64) (data : BitVec 32) (s : State) : Out :=
  build s rid (buildWrite s.cfg rid addr (scalarPayload 4 data))

/-- BLD.WR.U64 (R148, R153). -/
def execBldWrU64 (rid : BitVec 16) (addr : BitVec 64) (data : BitVec 64) (s : State) : Out :=
  build s rid (buildWrite s.cfg rid addr (scalarPayload 8 data))

/-- BLD.WR.F32 (R149, R147, R153). -/
def execBldWrF32 (rid : BitVec 16) (addr : BitVec 64) (data : BitVec 32) (s : State) : Out :=
  build s rid (buildWrite s.cfg rid addr (scalarPayload 4 data))

/-- BLD.WR.F64 (R150, R147, R153). -/
def execBldWrF64 (rid : BitVec 16) (addr : BitVec 64) (data : BitVec 64) (s : State) : Out :=
  build s rid (buildWrite s.cfg rid addr (scalarPayload 8 data))

end Sys2Proof.Machine
end

