-- ==== Sys2Proof/Machine/ChecksumFamily.lean ====
section
/-! DEFINITION. The byte-serial checksum family: CS.CLR, CS.PUT, CS.GET. -/

namespace Sys2Proof.Machine

/-- CS.CLR (R125): never refused. -/
def execCsClr (s : State) : Out := done s.clearCs okResult

/-- CS.PUT (R126): the byte that would be the 65535th is refused. Log 7 says what happens in states
no run reaches. -/
def execCsPut (x : Byte) (s : State) : Out :=
  if s.csCnt.toNat = csMaxLen then refuse s .csOverlen else done (s.putCs x) okResult

/-- CS.GET (R127): it reads the accumulator and does not clear it. -/
def execCsGet (s : State) : Out := done s (okVal ((finish s.csAcc.toNat).setWidth 64))

end Sys2Proof.Machine
end

