-- ==== Sys2Proof/Machine/Control.lean ====
section
/-! DEFINITION. The control family: SRST, WRTMO, RDST. -/

namespace Sys2Proof.Machine

/-- SRST (R230): accepted in every state. -/
def execSrst (s : State) : Out := done s.resetRegisters okResult

/-- WRTMO (R231). -/
def execWrtmo (tmo : BitVec 32) (s : State) : Out := done { s with tmo := tmo } okResult

/-- RDST (R232): every register on the ports, none changed. -/
def execRdst (s : State) : Out := done s (stateResult s)

end Sys2Proof.Machine
end

