-- ==== Sys2Proof/Machine/Extract.lean ====
section
/-! DEFINITION. The extract family: EXT.B and EXT of the scalar types. -/

namespace Sys2Proof.Machine

/-- EXT.B (R183). -/
def execExtB (pkt : Bytes) (rid : BitVec 16) (cap : BitVec 16) (s : State) : Out :=
  inspect s pkt (extractBytes s.cfg pkt rid cap)

/-- EXT.U16 (R184). -/
def execExtU16 (pkt : Bytes) (rid : BitVec 16) (s : State) : Out :=
  inspect s pkt (extractScalar s.cfg pkt rid 2)

/-- EXT.U32 (R185). -/
def execExtU32 (pkt : Bytes) (rid : BitVec 16) (s : State) : Out :=
  inspect s pkt (extractScalar s.cfg pkt rid 4)

/-- EXT.U64 (R186). -/
def execExtU64 (pkt : Bytes) (rid : BitVec 16) (s : State) : Out :=
  inspect s pkt (extractScalar s.cfg pkt rid 8)

/-- EXT.F32 (R187): the bit pattern, unchanged. -/
def execExtF32 (pkt : Bytes) (rid : BitVec 16) (s : State) : Out :=
  inspect s pkt (extractScalar s.cfg pkt rid 4)

/-- EXT.F64 (R188): the bit pattern, unchanged. -/
def execExtF64 (pkt : Bytes) (rid : BitVec 16) (s : State) : Out :=
  inspect s pkt (extractScalar s.cfg pkt rid 8)

end Sys2Proof.Machine
end

