-- ==== Sys2Proof/Machine/Packet.lean ====
section
/-! DEFINITION. The packet formats (R90 to R98): such a packet arrives in RXBUF (log 1). -/

namespace Sys2Proof.Machine

/-- PKT.READMEM_REQ (R93): `scdLength` is 12. -/
def execPktReadmemReq (ccd scd rid : BitVec 16) (rest : Bytes) (s : State) : Out :=
  .next (s.present (packetBytes preamble ccd scd channel flagAckReq cmdReadMem 12 rid rest))

/-- PKT.WRITEMEM_REQ (R94). -/
def execPktWritememReq (ccd scd len rid : BitVec 16) (rest : Bytes) (s : State) : Out :=
  .next (s.present (packetBytes preamble ccd scd channel flagAckReq cmdWriteMem len rid rest))

/-- PKT.READMEM_ACK (R95). -/
def execPktReadmemAck (ccd scd chan status len rid : BitVec 16) (rest : Bytes) (s : State) : Out :=
  .next (s.present (packetBytes preamble ccd scd chan status cmdReadMemAck len rid rest))

/-- PKT.WRITEMEM_ACK (R96). -/
def execPktWritememAck (ccd scd chan status len rid : BitVec 16) (rest : Bytes) (s : State) : Out :=
  .next (s.present (packetBytes preamble ccd scd chan status cmdWriteMemAck len rid rest))

/-- PKT.PENDING_ACK (R98): no special handling, it is a packet like any other. -/
def execPktPendingAck (ccd scd chan status len rid : BitVec 16) (rest : Bytes) (s : State) : Out :=
  .next (s.present (packetBytes preamble ccd scd chan status cmdPendingAck len rid rest))

end Sys2Proof.Machine
end

