-- ==== Sys2Proof/Machine/Sequencer.lean ====
section
/-! DEFINITION. The sequencer family: SQ.RD.*, SQ.WR.*, SQ.ACK, SQ.TMO. -/

namespace Sys2Proof.Machine

/-- SQ.RD.B (R203): `cnt` is not compared with `MAX_PAYLOAD`. -/
def execSqRdB (addr : BitVec 64) (cnt : BitVec 16) (s : State) : Out :=
  issue s (fun rid => buildRead rid addr cnt) (expectRead .bytes cnt cnt.toNat)

/-- SQ.RD.U16 (R204). -/
def execSqRdU16 (addr : BitVec 64) (s : State) : Out :=
  issue s (fun rid => buildRead rid addr 2) (expectRead .u16 1 2)

/-- SQ.RD.U32 (R205). -/
def execSqRdU32 (addr : BitVec 64) (s : State) : Out :=
  issue s (fun rid => buildRead rid addr 4) (expectRead .u32 1 4)

/-- SQ.RD.U64 (R206). -/
def execSqRdU64 (addr : BitVec 64) (s : State) : Out :=
  issue s (fun rid => buildRead rid addr 8) (expectRead .u64 1 8)

/-- SQ.RD.F32 (R207). -/
def execSqRdF32 (addr : BitVec 64) (s : State) : Out :=
  issue s (fun rid => buildRead rid addr 4) (expectRead .f32 1 4)

/-- SQ.RD.F64 (R208). -/
def execSqRdF64 (addr : BitVec 64) (s : State) : Out :=
  issue s (fun rid => buildRead rid addr 8) (expectRead .f64 1 8)

/-- SQ.WR.B (R209, R217): a payload that is too long consumes the id. -/
def execSqWrB (addr : BitVec 64) (cnt : BitVec 16) (din : Bytes) (s : State) : Out :=
  issue s (fun rid => buildWriteDin s.cfg s.draws rid addr cnt din) expectAck

/-- SQ.WR.U16 (R210, R218). -/
def execSqWrU16 (addr : BitVec 64) (data : BitVec 16) (s : State) : Out :=
  issue s (fun rid => buildWrite s.cfg rid addr (scalarPayload 2 data)) expectAck

/-- SQ.WR.U32 (R211, R218). -/
def execSqWrU32 (addr : BitVec 64) (data : BitVec 32) (s : State) : Out :=
  issue s (fun rid => buildWrite s.cfg rid addr (scalarPayload 4 data)) expectAck

/-- SQ.WR.U64 (R212, R218). -/
def execSqWrU64 (addr : BitVec 64) (data : BitVec 64) (s : State) : Out :=
  issue s (fun rid => buildWrite s.cfg rid addr (scalarPayload 8 data)) expectAck

/-- SQ.WR.F32 (R213, R218). -/
def execSqWrF32 (addr : BitVec 64) (data : BitVec 32) (s : State) : Out :=
  issue s (fun rid => buildWrite s.cfg rid addr (scalarPayload 4 data)) expectAck

/-- SQ.WR.F64 (R214, R218). -/
def execSqWrF64 (addr : BitVec 64) (data : BitVec 64) (s : State) : Out :=
  issue s (fun rid => buildWrite s.cfg rid addr (scalarPayload 8 data)) expectAck

/-- SQ.ACK (R215). -/
def execSqAck (pkt : Bytes) (cap : BitVec 16) (s : State) : Out := acknowledge s pkt cap

/-- SQ.TMO (R216). -/
def execSqTmo (s : State) : Out := timeout s

end Sys2Proof.Machine
end

