-- ==== Sys2Proof/Machine/Validate.lean ====
section
/-! DEFINITION. The validate family: VAL.RD, VAL.WR. -/

namespace Sys2Proof.Machine

/-- VAL.RD (R164). -/
def execValRd (pkt : Bytes) (rid : BitVec 16) (s : State) : Out :=
  inspect s pkt (verdictResult rid (validate s.cfg pkt rid true))

/-- VAL.WR (R165). -/
def execValWr (pkt : Bytes) (rid : BitVec 16) (s : State) : Out :=
  inspect s pkt (verdictResult rid (validate s.cfg pkt rid false))

end Sys2Proof.Machine
end

