-- ==== Sys2Proof/Machine/Dispatch.lean ====
section
/-! DEFINITION. One arm per constructor of Instr, each one call of its meaning. -/

namespace Sys2Proof.Machine

def exec (i : Instr) (s : State) : Host.Outcome State Fault Refusal :=
  match i with
  | .srst => Sys2Proof.Machine.execSrst s
  | .wrtmo tmo => Sys2Proof.Machine.execWrtmo tmo s
  | .rdst => Sys2Proof.Machine.execRdst s
  | .csClr => Sys2Proof.Machine.execCsClr s
  | .csPut data => Sys2Proof.Machine.execCsPut data s
  | .csGet => Sys2Proof.Machine.execCsGet s
  | .bldRd rid addr cnt => Sys2Proof.Machine.execBldRd rid addr cnt s
  | .bldWrB rid addr cnt din => Sys2Proof.Machine.execBldWrB rid addr cnt din s
  | .bldWrU16 rid addr data => Sys2Proof.Machine.execBldWrU16 rid addr data s
  | .bldWrU32 rid addr data => Sys2Proof.Machine.execBldWrU32 rid addr data s
  | .bldWrU64 rid addr data => Sys2Proof.Machine.execBldWrU64 rid addr data s
  | .bldWrF32 rid addr data => Sys2Proof.Machine.execBldWrF32 rid addr data s
  | .bldWrF64 rid addr data => Sys2Proof.Machine.execBldWrF64 rid addr data s
  | .valRd pkt rid => Sys2Proof.Machine.execValRd pkt rid s
  | .valWr pkt rid => Sys2Proof.Machine.execValWr pkt rid s
  | .extB pkt rid cap => Sys2Proof.Machine.execExtB pkt rid cap s
  | .extU16 pkt rid => Sys2Proof.Machine.execExtU16 pkt rid s
  | .extU32 pkt rid => Sys2Proof.Machine.execExtU32 pkt rid s
  | .extU64 pkt rid => Sys2Proof.Machine.execExtU64 pkt rid s
  | .extF32 pkt rid => Sys2Proof.Machine.execExtF32 pkt rid s
  | .extF64 pkt rid => Sys2Proof.Machine.execExtF64 pkt rid s
  | .sqRdB addr cnt => Sys2Proof.Machine.execSqRdB addr cnt s
  | .sqRdU16 addr => Sys2Proof.Machine.execSqRdU16 addr s
  | .sqRdU32 addr => Sys2Proof.Machine.execSqRdU32 addr s
  | .sqRdU64 addr => Sys2Proof.Machine.execSqRdU64 addr s
  | .sqRdF32 addr => Sys2Proof.Machine.execSqRdF32 addr s
  | .sqRdF64 addr => Sys2Proof.Machine.execSqRdF64 addr s
  | .sqWrB addr cnt din => Sys2Proof.Machine.execSqWrB addr cnt din s
  | .sqWrU16 addr data => Sys2Proof.Machine.execSqWrU16 addr data s
  | .sqWrU32 addr data => Sys2Proof.Machine.execSqWrU32 addr data s
  | .sqWrU64 addr data => Sys2Proof.Machine.execSqWrU64 addr data s
  | .sqWrF32 addr data => Sys2Proof.Machine.execSqWrF32 addr data s
  | .sqWrF64 addr data => Sys2Proof.Machine.execSqWrF64 addr data s
  | .sqAck pkt cap => Sys2Proof.Machine.execSqAck pkt cap s
  | .sqTmo => Sys2Proof.Machine.execSqTmo s
  | .pktReadmemReq ccd scd rid rest => Sys2Proof.Machine.execPktReadmemReq ccd scd rid rest s
  | .pktWritememReq ccd scd len rid rest => Sys2Proof.Machine.execPktWritememReq ccd scd len rid rest s
  | .pktReadmemAck ccd scd chan status len rid rest => Sys2Proof.Machine.execPktReadmemAck ccd scd chan status len rid rest s
  | .pktWritememAck ccd scd chan status len rid rest => Sys2Proof.Machine.execPktWritememAck ccd scd chan status len rid rest s
  | .pktPendingAck ccd scd chan status len rid rest => Sys2Proof.Machine.execPktPendingAck ccd scd chan status len rid rest s

end Sys2Proof.Machine
end

