-- ==== Sys2Proof/Machine/Fetch.lean ====
section
/-! DEFINITION. Taking the next event from the outside world's queue (R62, R80, log 2). -/

namespace Sys2Proof.Machine

/-- The next event is taken: what is left of the queue stays, and the counter of free values moves on
(log 5). -/
def State.take (s : State) (rest : List Event) : State :=
  { s with pending := rest, draws := s.draws + 1 }

/-- The event stands before everything else that is pending. -/
def State.pushEvent (s : State) (e : Event) : State := { s with pending := e :: s.pending }

/-- Received bytes that no packet pattern matches arrive in RXBUF (R50, R100). -/
def receiveRaw (s : State) (e : Event) : State :=
  match e with
  | .receive b => s.present b
  | .issue _ => s
  | .reset => s

end Sys2Proof.Machine
end

