-- ==== Sys2Proof/Machine/Step.lean ====
section
/-! DEFINITION. One step of the engine: the next event of the outside world, decoded and run. -/

namespace Sys2Proof.Machine

/-- One step (R62, R80). With nothing pending the engine holds its state (R264). An issue with a
reserved opcode is refused by the engine (R85), which is a next state. Bytes that match no packet
pattern arrive in RXBUF like any others (R100). -/
def step (s : State) : Host.Outcome State Fault Refusal :=
  match s.pending with
  | [] => .next s
  | e :: rest =>
    match decode e with
    | .instr i => exec i (s.take rest)
    | .reservedOp _ => refuse (s.take rest) .illegalOp
    | .unknownPacket => .next (receiveRaw (s.take rest) e)
    | .resetInput => .next (s.take rest).resetInput

/-- The table word `w` as the next thing the outside world does (log 2). -/
def State.withFetchWord (s : State) (nbits w : Nat) : State := s.pushEvent (tableEvent nbits w)

end Sys2Proof.Machine
end

