-- ==== Sys2Proof/Machine/Assembly.lean ====
section
/-! DEFINITION. Assembler names and text of the operations (R84, R86, log 15). -/

namespace Sys2Proof.Machine

/-- The mnemonic of an instruction, as the opcode map spells it (R84). -/
def mnemonic : Instr → String
  | .srst => "SRST"
  | .wrtmo _ => "WRTMO"
  | .rdst => "RDST"
  | .csClr => "CS.CLR"
  | .csPut _ => "CS.PUT"
  | .csGet => "CS.GET"
  | .bldRd _ _ _ => "BLD.RD"
  | .bldWrB _ _ _ _ => "BLD.WR.B"
  | .bldWrU16 _ _ _ => "BLD.WR.U16"
  | .bldWrU32 _ _ _ => "BLD.WR.U32"
  | .bldWrU64 _ _ _ => "BLD.WR.U64"
  | .bldWrF32 _ _ _ => "BLD.WR.F32"
  | .bldWrF64 _ _ _ => "BLD.WR.F64"
  | .valRd _ _ => "VAL.RD"
  | .valWr _ _ => "VAL.WR"
  | .extB _ _ _ => "EXT.B"
  | .extU16 _ _ => "EXT.U16"
  | .extU32 _ _ => "EXT.U32"
  | .extU64 _ _ => "EXT.U64"
  | .extF32 _ _ => "EXT.F32"
  | .extF64 _ _ => "EXT.F64"
  | .sqRdB _ _ => "SQ.RD.B"
  | .sqRdU16 _ => "SQ.RD.U16"
  | .sqRdU32 _ => "SQ.RD.U32"
  | .sqRdU64 _ => "SQ.RD.U64"
  | .sqRdF32 _ => "SQ.RD.F32"
  | .sqRdF64 _ => "SQ.RD.F64"
  | .sqWrB _ _ _ => "SQ.WR.B"
  | .sqWrU16 _ _ => "SQ.WR.U16"
  | .sqWrU32 _ _ => "SQ.WR.U32"
  | .sqWrU64 _ _ => "SQ.WR.U64"
  | .sqWrF32 _ _ => "SQ.WR.F32"
  | .sqWrF64 _ _ => "SQ.WR.F64"
  | .sqAck _ _ => "SQ.ACK"
  | .sqTmo => "SQ.TMO"
  | .pktReadmemReq _ _ _ _ => "PKT.READMEM_REQ"
  | .pktWritememReq _ _ _ _ _ => "PKT.WRITEMEM_REQ"
  | .pktReadmemAck _ _ _ _ _ _ _ => "PKT.READMEM_ACK"
  | .pktWritememAck _ _ _ _ _ _ _ => "PKT.WRITEMEM_ACK"
  | .pktPendingAck _ _ _ _ _ _ _ => "PKT.PENDING_ACK"

/-- One hexadecimal digit. -/
def hexDigit (n : Nat) : Char :=
  if n < 10 then Char.ofNat (48 + n) else Char.ofNat (55 + n)

/-- The last `digits` hexadecimal digits of a number. -/
def hexDigits : Nat → Nat → List Char
  | 0, _ => []
  | k + 1, n => hexDigit (n / 16 ^ k % 16) :: hexDigits k n

/-- A number in C syntax (R86), in hexadecimal. -/
def hexText (digits n : Nat) : String := String.ofList ('0' :: 'x' :: hexDigits digits n)

/-- Two-digit bytes separated by spaces inside brackets (R86). -/
def bytesText (b : Bytes) : String :=
  "[" ++ String.intercalate " " (b.map (fun x => String.ofList (hexDigits 2 x.toNat))) ++ "]"

/-- The operands of an operation by their port names (R82, R86, R87). -/
def operandTexts : Instr → List String
  | .srst => []
  | .wrtmo tmo => ["tmo=" ++ hexText 8 tmo.toNat]
  | .rdst => []
  | .csClr => []
  | .csPut data => ["data=" ++ hexText 2 data.toNat]
  | .csGet => []
  | .bldRd rid addr cnt =>
    ["rid=" ++ hexText 4 rid.toNat,
     "addr=" ++ hexText 16 addr.toNat,
     "cnt=" ++ hexText 4 cnt.toNat]
  | .bldWrB rid addr cnt din =>
    ["rid=" ++ hexText 4 rid.toNat,
     "addr=" ++ hexText 16 addr.toNat,
     "cnt=" ++ hexText 4 cnt.toNat,
     "din=" ++ bytesText din]
  | .bldWrU16 rid addr data =>
    ["rid=" ++ hexText 4 rid.toNat,
     "addr=" ++ hexText 16 addr.toNat,
     "data=" ++ hexText 4 data.toNat]
  | .bldWrU32 rid addr data =>
    ["rid=" ++ hexText 4 rid.toNat,
     "addr=" ++ hexText 16 addr.toNat,
     "data=" ++ hexText 8 data.toNat]
  | .bldWrU64 rid addr data =>
    ["rid=" ++ hexText 4 rid.toNat,
     "addr=" ++ hexText 16 addr.toNat,
     "data=" ++ hexText 16 data.toNat]
  | .bldWrF32 rid addr data =>
    ["rid=" ++ hexText 4 rid.toNat,
     "addr=" ++ hexText 16 addr.toNat,
     "data=" ++ hexText 8 data.toNat]
  | .bldWrF64 rid addr data =>
    ["rid=" ++ hexText 4 rid.toNat,
     "addr=" ++ hexText 16 addr.toNat,
     "data=" ++ hexText 16 data.toNat]
  | .valRd pkt rid => ["pkt=" ++ bytesText pkt, "rid=" ++ hexText 4 rid.toNat]
  | .valWr pkt rid => ["pkt=" ++ bytesText pkt, "rid=" ++ hexText 4 rid.toNat]
  | .extB pkt rid cap =>
    ["pkt=" ++ bytesText pkt,
     "rid=" ++ hexText 4 rid.toNat,
     "cap=" ++ hexText 4 cap.toNat]
  | .extU16 pkt rid => ["pkt=" ++ bytesText pkt, "rid=" ++ hexText 4 rid.toNat]
  | .extU32 pkt rid => ["pkt=" ++ bytesText pkt, "rid=" ++ hexText 4 rid.toNat]
  | .extU64 pkt rid => ["pkt=" ++ bytesText pkt, "rid=" ++ hexText 4 rid.toNat]
  | .extF32 pkt rid => ["pkt=" ++ bytesText pkt, "rid=" ++ hexText 4 rid.toNat]
  | .extF64 pkt rid => ["pkt=" ++ bytesText pkt, "rid=" ++ hexText 4 rid.toNat]
  | .sqRdB addr cnt => ["addr=" ++ hexText 16 addr.toNat, "cnt=" ++ hexText 4 cnt.toNat]
  | .sqRdU16 addr => ["addr=" ++ hexText 16 addr.toNat]
  | .sqRdU32 addr => ["addr=" ++ hexText 16 addr.toNat]
  | .sqRdU64 addr => ["addr=" ++ hexText 16 addr.toNat]
  | .sqRdF32 addr => ["addr=" ++ hexText 16 addr.toNat]
  | .sqRdF64 addr => ["addr=" ++ hexText 16 addr.toNat]
  | .sqWrB addr cnt din =>
    ["addr=" ++ hexText 16 addr.toNat,
     "cnt=" ++ hexText 4 cnt.toNat,
     "din=" ++ bytesText din]
  | .sqWrU16 addr data => ["addr=" ++ hexText 16 addr.toNat, "data=" ++ hexText 4 data.toNat]
  | .sqWrU32 addr data => ["addr=" ++ hexText 16 addr.toNat, "data=" ++ hexText 8 data.toNat]
  | .sqWrU64 addr data => ["addr=" ++ hexText 16 addr.toNat, "data=" ++ hexText 16 data.toNat]
  | .sqWrF32 addr data => ["addr=" ++ hexText 16 addr.toNat, "data=" ++ hexText 8 data.toNat]
  | .sqWrF64 addr data => ["addr=" ++ hexText 16 addr.toNat, "data=" ++ hexText 16 data.toNat]
  | .sqAck pkt cap => ["pkt=" ++ bytesText pkt, "cap=" ++ hexText 4 cap.toNat]
  | .sqTmo => []
  | .pktReadmemReq _ _ _ _ => []
  | .pktWritememReq _ _ _ _ _ => []
  | .pktReadmemAck _ _ _ _ _ _ _ => []
  | .pktWritememAck _ _ _ _ _ _ _ => []
  | .pktPendingAck _ _ _ _ _ _ _ => []

/-- `MNEMONIC operand=value, ...` (R86). -/
def asmText (i : Instr) : String :=
  match operandTexts i with
  | [] => mnemonic i
  | ts => mnemonic i ++ " " ++ String.intercalate ", " ts

/-- The pseudo-operation `CS.PUTS [b0 b1 ...]`: one CS.PUT per byte, in order (R86). -/
def csPuts (b : Bytes) : List Instr := b.map Instr.csPut

end Sys2Proof.Machine
end

