-- ==== Sys2Proof/Machine/Instances.lean ====
section
/-! DEFINITION. Several independent engines, one per logical channel (R262, log 16). -/

namespace Sys2Proof.Machine

/-- The engines of a system; the list's length is `N_INSTANCES` (R12). -/
abbrev System := List State

/-- `n` engines of one configuration right after reset, each with its own copy of all state (R262). -/
def systemReset (n : Nat) (c : Config) : System := List.replicate n (State.resetOf c)

/-- The `k`-th engine takes a step and the others hold theirs. There is no engine at or above the
length of the list, and nothing happens there. -/
def systemStep (k : Nat) (sys : System) : Host.Outcome System Fault Refusal :=
  match sys[k]? with
  | none => .next sys
  | some s =>
    match step s with
    | .next t => .next (sys.set k t)
    | .fault r => .fault r
    | .refused r => .refused r

end Sys2Proof.Machine
end

