-- ==== Sys2Proof/WellFormed.lean ====
section
/-! DEFINITION. The static well-formedness of an instruction: what the spec demands of its operands
beyond their widths. -/

namespace Sys2Proof

open Machine

/-- The host presents exactly `cnt` bytes on `din` (R82). -/
def dinWellFormed (cnt : BitVec 16) (din : Bytes) : Bool := din.length == cnt.toNat

/-- A ReadMem request has a 12-byte SCD whose reserved word is zero (R93). -/
def readReqWellFormed (rest : Bytes) : Bool := rest.length == 12 && be16 rest 8 == 0#16

/-- A WriteMem request has an SCD of the advertised length, at least the 8 address bytes (R94). -/
def writeReqWellFormed (len : BitVec 16) (rest : Bytes) : Bool :=
  rest.length == len.toNat && decide (8 ≤ len.toNat)

/-- An acknowledgement has an SCD of the advertised length (R90, R95). -/
def ackWellFormed (len : BitVec 16) (rest : Bytes) : Bool := rest.length == len.toNat

/-- A conforming WriteMem acknowledgement has a 4-byte SCD (R96). -/
def writeAckWellFormed (len : BitVec 16) (rest : Bytes) : Bool :=
  ackWellFormed len rest && len == 4#16

/-- The instruction's operands are as the spec demands. Every other operand is bounded by its width
alone (R82). An instruction that is not well-formed still has its meaning: R161 judges any bytes. -/
def Instr.wellFormed : Instr → Bool
  | .bldWrB _ _ cnt din => dinWellFormed cnt din
  | .sqWrB _ cnt din => dinWellFormed cnt din
  | .pktReadmemReq _ _ _ rest => readReqWellFormed rest
  | .pktWritememReq _ _ len _ rest => writeReqWellFormed len rest
  | .pktReadmemAck _ _ _ _ len _ rest => ackWellFormed len rest
  | .pktWritememAck _ _ _ _ len _ rest => writeAckWellFormed len rest
  | .pktPendingAck _ _ _ _ len _ rest => ackWellFormed len rest
  | .srst | .wrtmo _ | .rdst | .csClr | .csPut _ | .csGet
  | .bldRd _ _ _ | .bldWrU16 _ _ _ | .bldWrU32 _ _ _ | .bldWrU64 _ _ _ | .bldWrF32 _ _ _
  | .bldWrF64 _ _ _ | .valRd _ _ | .valWr _ _ | .extB _ _ _ | .extU16 _ _ | .extU32 _ _
  | .extU64 _ _ | .extF32 _ _ | .extF64 _ _ | .sqRdB _ _ | .sqRdU16 _ | .sqRdU32 _ | .sqRdU64 _
  | .sqRdF32 _ | .sqRdF64 _ | .sqWrU16 _ _ | .sqWrU32 _ _ | .sqWrU64 _ _ | .sqWrF32 _ _
  | .sqWrF64 _ _ | .sqAck _ _ | .sqTmo => true

end Sys2Proof
end

