-- ==== Sys2Proof/Safety.lean ====
section
/-! DEFINITION. What the statements speak of: sequences of instructions, the invariants of R37, what a
request packet and an acceptable acknowledgement are, and the families of the opcode map. -/

namespace Sys2Proof.Machine

/-- The instructions of a list run one after the other, stopping at the first that does not answer a
next state. -/
def execAll : List Instr → State → Out
  | [], s => .next s
  | i :: rest, s =>
    match exec i s with
    | .next t => execAll rest t
    | .fault r => .fault r
    | .refused r => .refused r

/-- An outcome with a function applied to its next state. -/
def mapNext (f : State → State) : Out → Out
  | .next t => .next (f t)
  | .fault r => .fault r
  | .refused r => .refused r

/-! The result ports of R83 as the tables of R83, R244 and R245 number them, written out for the
statements apart from the functions the meanings use. -/

/-- `Ok{}`: `rc` = 0. -/
def portsOk : ResultPorts := ResultPorts.zero

/-- `Ok{val}`. -/
def portsVal (v : BitVec 64) : ResultPorts := { ResultPorts.zero with rc := 0, val := v }

/-- `Ok{tx, txlen}`, `txlen` modulo 2^16 (log 9). -/
def portsTx (p : Bytes) : ResultPorts :=
  { ResultPorts.zero with rc := 0, tx := p, txlen := BitVec.ofNat 16 p.length }

/-- `Ok{tx, txlen, orid, drain}` of an issue. -/
def portsIssue (p : Bytes) (rid : BitVec 16) (drain : Bool) : ResultPorts :=
  { portsTx p with orid := rid, drain := if drain then 1 else 0 }

/-- `Ok{dout, olen, adv}`. -/
def portsDout (d : Bytes) (olen adv : BitVec 16) : ResultPorts :=
  { ResultPorts.zero with rc := 0, dout := d, olen := olen, adv := adv }

/-- `Trunc{dout, olen, adv}`: `rc` = 2. -/
def portsTrunc (d : Bytes) (olen adv : BitVec 16) : ResultPorts :=
  { ResultPorts.zero with rc := 2, dout := d, olen := olen, adv := adv }

/-- `Err{kind, requestId, step}`: `rc` = 1, `step` a number of R244. -/
def portsErr (kind : BitVec 12) (rid : BitVec 16) (step : BitVec 4) : ResultPorts :=
  { ResultPorts.zero with rc := 1, kind := kind, erid := rid, step := step }

/-- `Refused{reason}`: `rc` = 3, `reason` a number of R245. -/
def portsRefused (reason : BitVec 3) : ResultPorts :=
  { ResultPorts.zero with rc := 3, reason := reason }

/-- The reserved opcodes, as R85 lists them. -/
def reservedOpcode (n : Nat) : Bool :=
  n == 0x00 || (0x04 ≤ n && n ≤ 0x0F) || (0x13 ≤ n && n ≤ 0x1F) || (0x21 ≤ n && n ≤ 0x27)
    || n == 0x2E || n == 0x2F || (0x32 ≤ n && n ≤ 0x3F) || (0x46 ≤ n && n ≤ 0x4F)
    || n == 0x56 || n == 0x57 || (0x60 ≤ n && n ≤ 0xFF)

/-- A request packet with the given id, as R151 describes every packet a build returns. -/
structure RequestPacket (p : Bytes) (rid : BitVec 16) : Prop where
  preamble_eq : be16 p 0 = 0x0100#16
  channel_eq  : be16 p 6 = 0#16
  flags_eq    : be16 p 8 = 0x4000#16
  length_eq   : (be16 p 12).toNat + 16 = p.length
  rid_eq      : be16 p 14 = rid
  ccd_eq      : checksum16 (slice p 6 16) = some (be16 p 2)
  scd_eq      : checksum16 (slice p 6 p.length) = some (be16 p 4)

/-- `LASTREQ` is empty or a request packet (R28, R151). -/
def LastReqInv (s : State) : Prop := s.lastReq = [] ∨ ∃ rid, RequestPacket s.lastReq rid

/-- An acknowledgement that passes every check of R161 but the request id: `cmd` is the expected
command id. -/
abbrev AcceptableAck (c : Config) (cmd : BitVec 16) (p : Bytes) : Prop :=
  16 ≤ p.length ∧ be16 p 0 = 0x0100#16
    ∧ checksum16 (slice p 6 16) = some (be16 p 2)
    ∧ 16 + (be16 p 12).toNat ≤ p.length
    ∧ checksum16 (slice p 6 (16 + (be16 p 12).toNat)) = some (be16 p 4)
    ∧ be16 p 10 = cmd
    ∧ (be16 p 12).toNat ≤ c.maxPayload.val
    ∧ (be16 p 8).getLsbD 15 = false

/-- One check of R161: whether it fails, the kind it reports and its step number (R244). -/
structure CheckLine where
  fails : Bool
  kind  : BitVec 12
  step  : BitVec 4
deriving DecidableEq, Repr

/-- The checks of R161 in the source's order, for a read or a write acknowledgement. The request id
is a check of read acknowledgements only. -/
def checkList (c : Config) (p : Bytes) (exp : BitVec 16) (isRead : Bool) : List CheckLine :=
  [⟨decide (p.length < 16), 2, 0⟩,
   ⟨decide (be16 p 0 ≠ 0x0100#16), 2, 1⟩,
   ⟨isRead && decide (be16 p 14 ≠ exp), 2, 2⟩,
   ⟨decide (checksum16 (slice p 6 16) ≠ some (be16 p 2)), 2, 3⟩,
   ⟨decide (p.length < 16 + (be16 p 12).toNat), 2, 4⟩,
   ⟨decide (checksum16 (slice p 6 (16 + (be16 p 12).toNat)) ≠ some (be16 p 4)), 2, 4⟩,
   ⟨decide (be16 p 10 ≠ (if isRead then 0x0801#16 else 0x0803#16)), c.kindCmdMismatch, 5⟩,
   ⟨decide (c.maxPayload.val < (be16 p 12).toNat), 2, 6⟩,
   ⟨(be16 p 8).getLsbD 15, (be16 p 8).extractLsb' 0 12, 7⟩]

/-- The check that a validation reports: the first of the list that fails. -/
def firstFailure (c : Config) (p : Bytes) (exp : BitVec 16) (isRead : Bool) : Option CheckLine :=
  (checkList c p exp isRead).find? (·.fails)

/-- The families of the opcode map (R81), and the packet rows. -/
inductive Family where
  | control | checksum | build | validate | extract | issueRead | issueWrite | complete | packet
deriving DecidableEq, Repr

/-- The family of an instruction (R81, R84). -/
def family : Instr → Family
  | .srst | .wrtmo _ | .rdst => .control
  | .csClr | .csPut _ | .csGet => .checksum
  | .bldRd _ _ _ | .bldWrB _ _ _ _ | .bldWrU16 _ _ _ | .bldWrU32 _ _ _ | .bldWrU64 _ _ _
  | .bldWrF32 _ _ _ | .bldWrF64 _ _ _ => .build
  | .valRd _ _ | .valWr _ _ => .validate
  | .extB _ _ _ | .extU16 _ _ | .extU32 _ _ | .extU64 _ _ | .extF32 _ _ | .extF64 _ _ => .extract
  | .sqRdB _ _ | .sqRdU16 _ | .sqRdU32 _ | .sqRdU64 _ | .sqRdF32 _ | .sqRdF64 _ => .issueRead
  | .sqWrB _ _ _ | .sqWrU16 _ _ | .sqWrU32 _ _ | .sqWrU64 _ _ | .sqWrF32 _ _ | .sqWrF64 _ _ =>
    .issueWrite
  | .sqAck _ _ | .sqTmo => .complete
  | .pktReadmemReq _ _ _ _ | .pktWritememReq _ _ _ _ _ | .pktReadmemAck _ _ _ _ _ _ _
  | .pktWritememAck _ _ _ _ _ _ _ | .pktPendingAck _ _ _ _ _ _ _ => .packet

/-- An issue operation: SQ.RD.* or SQ.WR.*. -/
def isIssue (i : Instr) : Bool := family i == .issueRead || family i == .issueWrite

/-- Whether an issue has succeeded since the last reset (R37 (b)), after the step from `s` to `t`. -/
def issuedAfter (issued : Bool) (s t : State) : Bool :=
  match s.pending with
  | [] => issued
  | e :: _ =>
    match decode e with
    | .resetInput => false
    | .instr .srst => false
    | .instr i => issued || (isIssue i && t.out.rc == 0)
    | .reservedOp _ => issued
    | .unknownPacket => issued

/-- What R37, R31 and R221 say of every state after reset, `issued` telling whether an issue has
succeeded since: with `BUSY` = 1 an expectation is recorded, a packet of at least 24 bytes is stored and
`RSYNC` is Idle; with no expectation recorded no issue has succeeded; `TXLEN` is at most `PKT_MAX`, in
numbers 24 + `MAX_PAYLOAD`, or the 28 bytes of a ReadMem request where `MAX_PAYLOAD` is below 4
(log 17); `CS.CNT` is at most `CS_MAXLEN`, `CS.ODD` is its parity, and `CS.ACC` is at most what that
many bytes can sum to. -/
structure EngineInv (issued : Bool) (s : State) : Prop where
  busyKind : s.busy = true → s.expect.kind ≠ .none
  busyLen  : s.busy = true → 24 ≤ s.lastReq.length
  busyIdle : s.busy = true → s.rsync = .idle
  kindNone : s.expect.kind = .none → issued = false
  txMax    : s.lastReq.length ≤ pktMax s.cfg
  txLarge  : 4 ≤ s.cfg.maxPayload.val → s.lastReq.length ≤ 24 + s.cfg.maxPayload.val
  txSmall  : s.cfg.maxPayload.val < 4 → s.lastReq.length ≤ 28
  csMax    : s.csCnt.toNat ≤ csMaxLen
  csParity : s.csOdd = decide (s.csCnt.toNat % 2 = 1)
  csBound  : s.csAcc.toNat ≤ 65535 * (s.csCnt.toNat / 2) + 65280 * (s.csCnt.toNat % 2)

/-- The packet operand of an operation that validates or extracts (R87). -/
def pktOperand : Instr → Option Bytes
  | .valRd pkt _ | .valWr pkt _ | .extB pkt _ _ | .extU16 pkt _ | .extU32 pkt _ | .extU64 pkt _
  | .extF32 pkt _ | .extF64 pkt _ => some pkt
  | .srst | .wrtmo _ | .rdst | .csClr | .csPut _ | .csGet | .bldRd _ _ _ | .bldWrB _ _ _ _
  | .bldWrU16 _ _ _ | .bldWrU32 _ _ _ | .bldWrU64 _ _ _ | .bldWrF32 _ _ _ | .bldWrF64 _ _ _
  | .sqRdB _ _ | .sqRdU16 _ | .sqRdU32 _ | .sqRdU64 _ | .sqRdF32 _ | .sqRdF64 _ | .sqWrB _ _ _
  | .sqWrU16 _ _ | .sqWrU32 _ _ | .sqWrU64 _ _ | .sqWrF32 _ _ | .sqWrF64 _ _ | .sqAck _ _ | .sqTmo
  | .pktReadmemReq _ _ _ _ | .pktWritememReq _ _ _ _ _ | .pktReadmemAck _ _ _ _ _ _ _
  | .pktWritememAck _ _ _ _ _ _ _ | .pktPendingAck _ _ _ _ _ _ _ => none

/-- The `rid` operand of an operation that validates or extracts (R87). -/
def ridOperand : Instr → Option (BitVec 16)
  | .valRd _ rid | .valWr _ rid | .extB _ rid _ | .extU16 _ rid | .extU32 _ rid | .extU64 _ rid
  | .extF32 _ rid | .extF64 _ rid => some rid
  | .srst | .wrtmo _ | .rdst | .csClr | .csPut _ | .csGet | .bldRd _ _ _ | .bldWrB _ _ _ _
  | .bldWrU16 _ _ _ | .bldWrU32 _ _ _ | .bldWrU64 _ _ _ | .bldWrF32 _ _ _ | .bldWrF64 _ _ _
  | .sqRdB _ _ | .sqRdU16 _ | .sqRdU32 _ | .sqRdU64 _ | .sqRdF32 _ | .sqRdF64 _ | .sqWrB _ _ _
  | .sqWrU16 _ _ | .sqWrU32 _ _ | .sqWrU64 _ _ | .sqWrF32 _ _ | .sqWrF64 _ _ | .sqAck _ _ | .sqTmo
  | .pktReadmemReq _ _ _ _ | .pktWritememReq _ _ _ _ _ | .pktReadmemAck _ _ _ _ _ _ _
  | .pktWritememAck _ _ _ _ _ _ _ | .pktPendingAck _ _ _ _ _ _ _ => none

/-- Why the engine refuses an instruction in a state, by the numbers of R245 (2 BUSY, 3 NO_REQUEST,
4 CS_OVERLEN, 5 RX_RANGE); nothing where it does not. A reserved opcode is no instruction. -/
def refusalCause (i : Instr) (s : State) : Option (BitVec 3) :=
  match family i with
  | .build | .issueRead | .issueWrite => if s.busy then some 2 else none
  | .validate | .extract =>
    match pktOperand i with
    | some pkt => if rxMax s.cfg < pkt.length then some 5 else none
    | none => none
  | .complete =>
    if s.busy = false then some 3
    else
      match i with
      | .sqAck pkt _ => if rxMax s.cfg < pkt.length then some 5 else none
      | _ => none
  | .checksum =>
    match i with
    | .csPut _ => if s.csCnt.toNat = csMaxLen then some 4 else none
    | _ => none
  | .control | .packet => none

/-- The accumulator value of R31: bytes at even places count 256 times. -/
def placeSum (b : Bytes) : Nat :=
  (b.zipIdx.map fun x => if x.2 % 2 = 0 then x.1.toNat * 256 else x.1.toNat).sum

/-- `MemRead(b, off, n)` as R15 writes it: byte `off + k` counts 256^(n-1-k) times. -/
def beValue (b : Bytes) (off n : Nat) : Nat :=
  ((List.range n).map fun k => (b.getD (off + k) 0).toNat * 256 ^ (n - 1 - k)).sum

/-- Two packets carry the same CCD checksum and the same SCD checksum (R90). -/
def SameChecksums (p q : Bytes) : Prop := be16 p 2 = be16 q 2 ∧ be16 p 4 = be16 q 4

/-- Two addresses differ in the `j`-th 16-bit word alone, 0x0000 against 0xFFFF (R152). -/
def WordFlip (j : Nat) (a b : BitVec 64) : Prop :=
  a.extractLsb' (16 * j) 16 = 0x0000#16 ∧ b.extractLsb' (16 * j) 16 = 0xFFFF#16
    ∧ ∀ i, i < 4 → i ≠ j → a.extractLsb' (16 * i) 16 = b.extractLsb' (16 * i) 16

/-- A scalar build does what R145 to R150 and R153 say, `payload` being its payload bytes: refused
while a request is outstanding; the WriteMem request of R142 as `LASTREQ` and on the ports where the
payload fits `MAX_PAYLOAD`; otherwise step 10, no register changed. -/
def BuildsWrite (i : Instr) (rid : BitVec 16) (addr : BitVec 64) (payload : Bytes) : Prop :=
  ∀ s : State,
    (s.busy = true → exec i s = .next { s with out := portsRefused 2 })
    ∧ (s.busy = false → payload.length ≤ s.cfg.maxPayload.val →
        ∃ p, frame 0x4000#16 0x0802#16 rid (encBe 8 addr.toNat ++ payload) = some p
          ∧ p.length = 24 + payload.length
          ∧ exec i s = .next { s with lastReq := p, out := portsTx p })
    ∧ (s.busy = false → s.cfg.maxPayload.val < payload.length →
        exec i s = .next { s with out := portsErr 2 rid 10 })

/-- An issue of a read of `n` bytes does what R200 to R202 and R203 to R208 say. -/
def IssuesRead (i : Instr) (addr : BitVec 64) (n : BitVec 16) (kind : ResponseKind)
    (count : BitVec 16) : Prop :=
  ∀ s : State,
    (s.busy = true → exec i s = .next { s with out := portsRefused 2 })
    ∧ (s.busy = false →
        ∃ p, frame 0x4000#16 0x0800#16 (s.reqid + 1)
              (encBe 8 addr.toNat ++ encBe 2 0 ++ encBe 2 n.toNat) = some p
          ∧ p.length = 28
          ∧ exec i s = .next
              { s with
                reqid := s.reqid + 1, lastReq := p, rsync := .idle, busy := true
                expect := ⟨kind, count, BitVec.ofNat 32 (16 + n.toNat)⟩
                out := portsIssue p (s.reqid + 1) (decide (s.rsync = .awaitingFlush)) })

/-- An issue of a scalar write does what R200 to R202, R210 to R214, R217 and R218 say, `payload`
being its payload bytes. -/
def IssuesWrite (i : Instr) (addr : BitVec 64) (payload : Bytes) : Prop :=
  ∀ s : State,
    (s.busy = true → exec i s = .next { s with out := portsRefused 2 })
    ∧ (s.busy = false → payload.length ≤ s.cfg.maxPayload.val →
        ∃ p, frame 0x4000#16 0x0802#16 (s.reqid + 1) (encBe 8 addr.toNat ++ payload) = some p
          ∧ p.length = 24 + payload.length
          ∧ exec i s = .next
              { s with
                reqid := s.reqid + 1, lastReq := p, rsync := .idle, busy := true
                expect := ⟨.ack, 0, 20⟩
                out := portsIssue p (s.reqid + 1) (decide (s.rsync = .awaitingFlush)) })
    ∧ (s.busy = false → s.cfg.maxPayload.val < payload.length →
        exec i s = .next
          { s with
            reqid := s.reqid + 1
            out := { portsErr 2 (s.reqid + 1) 10 with orid := s.reqid + 1 } })

/-- A scalar extraction of `w` bytes does what R181 and R182 say on an acceptable acknowledgement that
carries the expected id. -/
def ExtractsScalar (i : Instr) (pkt : Bytes) (rid : BitVec 16) (w : Nat) : Prop :=
  ∀ s : State, pkt.length ≤ rxMax s.cfg → AcceptableAck s.cfg 0x0801#16 pkt → be16 pkt 14 = rid →
    (w ≤ (be16 pkt 12).toNat →
      exec i s = .next { s with out := portsVal (BitVec.ofNat 64 (beValue pkt 16 w)) })
    ∧ ((be16 pkt 12).toNat < w →
      exec i s = .next { s with out := portsErr 2 rid 8 })

end Sys2Proof.Machine
end

