-- ==== Sys2Proof/Certificates/Slice0/Obligations.lean ====
section
/-! DEFINITION. The statements for the provers. "Log n" is notes/assumptions/n.md. -/

open Sys2Proof Sys2Proof.Machine

/-! ## Decoding and the step -/

/-- Decode and encode agree on every instruction, with every operand at every value (R84, R87, R104). -/
def Obligations.DecodeOfEncode : Prop :=
  ∀ i : Instr, decode (encode i) = .instr i

/-- No byte of a recognised packet is lost: encoding what the decoder reads gives the bytes back. -/
def Obligations.EncodeOfDecodedPacket : Prop :=
  ∀ (b : Bytes) (i : Instr), decodePacket b = .instr i → encode i = .receive b

/-- R84 with R87: each opcode stands for its operation with exactly the operand ports of its row, and
every other opcode is reserved. -/
def Obligations.OpcodeMap : Prop :=
  ∀ p : Ports,
    (p.op = 0x01#8 → decodeOp p = .instr .srst)
    ∧ (p.op = 0x02#8 → decodeOp p = .instr (.wrtmo p.tmo))
    ∧ (p.op = 0x03#8 → decodeOp p = .instr .rdst)
    ∧ (p.op = 0x10#8 → decodeOp p = .instr .csClr)
    ∧ (p.op = 0x11#8 → decodeOp p = .instr (.csPut (p.data.setWidth 8)))
    ∧ (p.op = 0x12#8 → decodeOp p = .instr .csGet)
    ∧ (p.op = 0x20#8 → decodeOp p = .instr (.bldRd p.rid p.addr p.cnt))
    ∧ (p.op = 0x28#8 → decodeOp p = .instr (.bldWrB p.rid p.addr p.cnt p.din))
    ∧ (p.op = 0x29#8 → decodeOp p = .instr (.bldWrU16 p.rid p.addr (p.data.setWidth 16)))
    ∧ (p.op = 0x2A#8 → decodeOp p = .instr (.bldWrU32 p.rid p.addr (p.data.setWidth 32)))
    ∧ (p.op = 0x2B#8 → decodeOp p = .instr (.bldWrU64 p.rid p.addr p.data))
    ∧ (p.op = 0x2C#8 → decodeOp p = .instr (.bldWrF32 p.rid p.addr (p.data.setWidth 32)))
    ∧ (p.op = 0x2D#8 → decodeOp p = .instr (.bldWrF64 p.rid p.addr p.data))
    ∧ (p.op = 0x30#8 → decodeOp p = .instr (.valRd p.pkt p.rid))
    ∧ (p.op = 0x31#8 → decodeOp p = .instr (.valWr p.pkt p.rid))
    ∧ (p.op = 0x40#8 → decodeOp p = .instr (.extB p.pkt p.rid p.cap))
    ∧ (p.op = 0x41#8 → decodeOp p = .instr (.extU16 p.pkt p.rid))
    ∧ (p.op = 0x42#8 → decodeOp p = .instr (.extU32 p.pkt p.rid))
    ∧ (p.op = 0x43#8 → decodeOp p = .instr (.extU64 p.pkt p.rid))
    ∧ (p.op = 0x44#8 → decodeOp p = .instr (.extF32 p.pkt p.rid))
    ∧ (p.op = 0x45#8 → decodeOp p = .instr (.extF64 p.pkt p.rid))
    ∧ (p.op = 0x50#8 → decodeOp p = .instr (.sqRdB p.addr p.cnt))
    ∧ (p.op = 0x51#8 → decodeOp p = .instr (.sqRdU16 p.addr))
    ∧ (p.op = 0x52#8 → decodeOp p = .instr (.sqRdU32 p.addr))
    ∧ (p.op = 0x53#8 → decodeOp p = .instr (.sqRdU64 p.addr))
    ∧ (p.op = 0x54#8 → decodeOp p = .instr (.sqRdF32 p.addr))
    ∧ (p.op = 0x55#8 → decodeOp p = .instr (.sqRdF64 p.addr))
    ∧ (p.op = 0x58#8 → decodeOp p = .instr (.sqWrB p.addr p.cnt p.din))
    ∧ (p.op = 0x59#8 → decodeOp p = .instr (.sqWrU16 p.addr (p.data.setWidth 16)))
    ∧ (p.op = 0x5A#8 → decodeOp p = .instr (.sqWrU32 p.addr (p.data.setWidth 32)))
    ∧ (p.op = 0x5B#8 → decodeOp p = .instr (.sqWrU64 p.addr p.data))
    ∧ (p.op = 0x5C#8 → decodeOp p = .instr (.sqWrF32 p.addr (p.data.setWidth 32)))
    ∧ (p.op = 0x5D#8 → decodeOp p = .instr (.sqWrF64 p.addr p.data))
    ∧ (p.op = 0x5E#8 → decodeOp p = .instr (.sqAck p.pkt p.cap))
    ∧ (p.op = 0x5F#8 → decodeOp p = .instr .sqTmo)
    ∧ (reservedOpcode p.op.toNat = true → decodeOp p = .reservedOp p.op)

/-- A few words of spec/opcode_table.json decode to what they stand for, operands zero. -/
def Obligations.TableWordsDecode : Prop :=
  decodeTableWord 8 0x01 = some .srst
    ∧ decodeTableWord 8 0x11 = some (.csPut 0)
    ∧ decodeTableWord 8 0x29 = some (.bldWrU16 0 0 0)
    ∧ decodeTableWord 8 0x5E = some (.sqAck [] 0)
    ∧ decodeTableWord 128 0x01000000000000000000080300000000
        = some (.pktWritememAck 0 0 0 0 0 0 [])
    ∧ decodeTableWord 8 0x00 = none

/-- A step runs the decoded instruction: the event leaves the queue, the counter of free values moves
on (the model's own fields, log 2 and log 5), and `exec` does the rest. -/
def Obligations.StepRunsDecodedInstruction : Prop :=
  ∀ (s : State) (e : Event) (rest : List Event) (i : Instr),
    s.pending = e :: rest → decode e = .instr i →
    step s = exec i { s with pending := rest, draws := s.draws + 1 }

/-- R264: with nothing issued the engine holds its state and does nothing. That an empty queue makes an
idle step is the model's choice (log 2), and so is that the result ports keep the last result between
operations, where R20 says that ports hold no value (log 4). -/
def Obligations.IdleStepHoldsState : Prop :=
  ∀ s : State, s.pending = [] → step s = .next s

/-- R85: a reserved opcode is refused with ILLEGAL_OP, reason 1 of R245, and no register changes. The
queue and the counter of free values are the model's choice (log 2, log 5). -/
def Obligations.ReservedOpcodeRefused : Prop :=
  ∀ (s : State) (p : Ports) (rest : List Event),
    s.pending = .issue p :: rest → reservedOpcode p.op.toNat = true →
    step s = .next { s with
      pending := rest, draws := s.draws + 1, out := portsRefused 1 }

/-- Received bytes, of whatever form, are RXBUF for the operation issued next, its operand `pkt`, and
change nothing else; where no operation comes next nothing is kept of them (R50). The model's reading of
an arrival, its queue and its counter of free values are its choices (log 1, log 2, log 5). -/
def Obligations.ReceivedBytesOnlyLoadRxbuf : Prop :=
  ∀ (s : State) (b : Bytes) (rest : List Event),
    s.pending = .receive b :: rest →
    (∀ p more, rest = .issue p :: more →
      step s = .next { s with
        pending := .issue { p with pkt := b } :: more, draws := s.draws + 1 })
    ∧ ((∀ p more, rest ≠ .issue p :: more) →
      step s = .next { s with pending := rest, draws := s.draws + 1 })

/-- Each packet row makes its packet RXBUF for the operation issued next, its operand `pkt`, and changes
nothing else: the model's reading of a row that is no operation (log 1). -/
def Obligations.PacketRowsLoadRxbuf : Prop :=
  ∀ (i : Instr) (s : State), family i = .packet →
    ∃ b, encode i = .receive b
      ∧ (∀ p more, s.pending = .issue p :: more →
        exec i s = .next { s with pending := .issue { p with pkt := b } :: more })
      ∧ ((∀ p more, s.pending ≠ .issue p :: more) → exec i s = .next s)

/-- R36: what reset leaves in every register, in every configuration. That the machine's reset state is
that of the reference configuration of R8 and R12 is the model's choice (log 6). -/
def Obligations.ResetValues : Prop :=
  (∀ c : Config,
    (State.resetOf c).reqid = c.reqidReset ∧ (State.resetOf c).busy = false
    ∧ (State.resetOf c).rsync = .idle ∧ (State.resetOf c).expect = ⟨.none, 0, 0⟩
    ∧ (State.resetOf c).lastReq = [] ∧ (State.resetOf c).tmo = c.tmoReset
    ∧ (State.resetOf c).csAcc = 0 ∧ (State.resetOf c).csOdd = false
    ∧ (State.resetOf c).csCnt = 0)
  ∧ State.reset = State.resetOf Config.reference

/-- R270 and R271: the reset input leaves every register as SRST leaves it, at its reset value; what
is pending stays and every result port is zero: the model's choices (log 2, log 12). -/
def Obligations.ResetInputResetsRegisters : Prop :=
  ∀ (s : State) (rest : List Event), s.pending = .reset :: rest →
    step s = .next { State.resetOf s.cfg with pending := rest, draws := s.draws + 1 }

/-! ## Control -/

/-- R230: SRST puts every register at its reset value, in every state, and returns Ok. -/
def Obligations.SrstResetsRegisters : Prop :=
  ∀ s : State, exec .srst s = .next { State.resetOf s.cfg with
    pending := s.pending, draws := s.draws, out := portsOk }

/-- R231: WRTMO writes TMO and nothing else, in every state. -/
def Obligations.WrtmoWritesTmo : Prop :=
  ∀ (v : BitVec 32) (s : State), exec (.wrtmo v) s = .next { s with tmo := v, out := portsOk }

/-- R232: RDST shows every register of R22 on its port, in the encodings of R25 to R27, and changes none.
That `txlen` is the length modulo 2^16 beside a longer packet is the model's choice (log 9). -/
def Obligations.RdstShowsEveryRegister : Prop :=
  ∀ s : State, ∃ r : ResultPorts, exec .rdst s = .next { s with out := r }
    ∧ r.rc = 0 ∧ r.reqid = s.reqid
    ∧ (s.busy = false → r.busy = 0) ∧ (s.busy = true → r.busy = 1)
    ∧ (s.rsync = .idle → r.rsync = 0) ∧ (s.rsync = .awaitingFlush → r.rsync = 1)
    ∧ (s.expect.kind = .none → r.ekind = 0) ∧ (s.expect.kind = .ack → r.ekind = 1)
    ∧ (s.expect.kind = .bytes → r.ekind = 2) ∧ (s.expect.kind = .u16 → r.ekind = 3)
    ∧ (s.expect.kind = .u32 → r.ekind = 4) ∧ (s.expect.kind = .u64 → r.ekind = 5)
    ∧ (s.expect.kind = .f32 → r.ekind = 6) ∧ (s.expect.kind = .f64 → r.ekind = 7)
    ∧ r.ecount = s.expect.count ∧ r.elen = s.expect.len
    ∧ r.tx = s.lastReq ∧ r.txlen = BitVec.ofNat 16 s.lastReq.length ∧ r.tmo = s.tmo
    ∧ r.csacc = s.csAcc ∧ (s.csOdd = false → r.csodd = 0) ∧ (s.csOdd = true → r.csodd = 1)
    ∧ r.cscnt = s.csCnt
    ∧ r.kind = 0 ∧ r.erid = 0 ∧ r.step = 0 ∧ r.reason = 0 ∧ r.warn = 0 ∧ r.drain = 0 ∧ r.orid = 0
    ∧ r.val = 0 ∧ r.dout = [] ∧ r.olen = 0 ∧ r.adv = 0

/-! ## The Checksum Engine -/

/-- R121: the checksum has a value exactly up to 65534 bytes. -/
def Obligations.ChecksumDefinedUpToMaxlen : Prop :=
  ∀ b : Bytes, (checksum16 b).isSome = true ↔ b.length ≤ 65534

/-- R123 (a) and (b): words summed chunk by chunk, every chunk but the last of even length, give the
checksum of the whole; an odd byte string has the checksum of itself with a zero byte after it. -/
def Obligations.ChecksumChunksAndPadding : Prop :=
  (∀ (chunks : List Bytes) (last : Bytes), (∀ c ∈ chunks, c.length % 2 = 0) →
    (chunks.flatten ++ last).length ≤ 65534 →
    checksum16 (chunks.flatten ++ last)
      = some (finish ((chunks.map sumWords).sum + sumWords last)))
  ∧ ∀ b : Bytes, b.length % 2 = 1 → checksum16 b = checksum16 (b ++ [0])

/-- R124 (b): the checksum is 0xFFFF exactly when every byte is zero, and 0x0000 exactly when the sum
is a non-zero multiple of 0xFFFF. -/
def Obligations.ChecksumExtremes : Prop :=
  ∀ b : Bytes, b.length ≤ 65534 →
    (checksum16 b = some 0xFFFF#16 ↔ ∀ x ∈ b, x = 0#8)
    ∧ (checksum16 b = some 0x0000#16 ↔ sumWords b ≠ 0 ∧ 65535 ∣ sumWords b)

/-- R124 (c), R287: exchanging two aligned words does not change the checksum. -/
def Obligations.ChecksumBlindToWordSwap : Prop :=
  ∀ (a m c : Bytes) (h1 l1 h2 l2 : Byte), a.length % 2 = 0 → m.length % 2 = 0 →
    checksum16 (a ++ [h1, l1] ++ m ++ [h2, l2] ++ c)
      = checksum16 (a ++ [h2, l2] ++ m ++ [h1, l1] ++ c)

/-- R125: CS.CLR clears the three checksum registers, in every state. -/
def Obligations.CsClrClears : Prop :=
  ∀ s : State, exec .csClr s
    = .next { s with csAcc := 0, csOdd := false, csCnt := 0, out := portsOk }

/-- R126: CS.PUT refuses the byte after the 65534th, and otherwise adds it as the high or the low byte
of a word, turns CS.ODD and counts it. In states no run reaches, with `CS.CNT` = 65535 or `CS.ACC` near
2^32, that it goes on and the sums wrap is the model's choice (log 7). -/
def Obligations.CsPutAddsByte : Prop :=
  ∀ (x : Byte) (s : State),
    (s.csCnt = 65534#16 → exec (.csPut x) s = .next { s with out := portsRefused 4 })
    ∧ (s.csCnt ≠ 65534#16 → s.csOdd = false →
        exec (.csPut x) s = .next { s with
          csAcc := s.csAcc + BitVec.ofNat 32 (x.toNat * 256), csOdd := true
          csCnt := s.csCnt + 1, out := portsOk })
    ∧ (s.csCnt ≠ 65534#16 → s.csOdd = true →
        exec (.csPut x) s = .next { s with
          csAcc := s.csAcc + BitVec.ofNat 32 x.toNat, csOdd := false
          csCnt := s.csCnt + 1, out := portsOk })

/-- R127: CS.GET returns the folded and complemented accumulator, zero-extended, and changes no
register; folding leaves a value below 2^16 that is congruent to the accumulator modulo 0xFFFF, and
zero only for a zero accumulator. -/
def Obligations.CsGetFoldsAccumulator : Prop :=
  ∀ s : State, ∃ f : Nat, f < 65536 ∧ f % 65535 = s.csAcc.toNat % 65535
    ∧ (f = 0 ↔ s.csAcc = 0)
    ∧ exec .csGet s = .next { s with
        out := portsVal ((~~~ (BitVec.ofNat 16 f)).setWidth 64) }

/-- R31: the checksum registers after CS.CLR and one CS.PUT per byte; the sum is below 2^31. -/
def Obligations.CsRegistersAfterPuts : Prop :=
  ∀ (s : State) (b : Bytes), b.length ≤ 65534 →
    placeSum b < 2 ^ 31
    ∧ ∃ t : State, execAll (.csClr :: csPuts b) s = .next t
      ∧ t.csCnt.toNat = b.length ∧ t.csOdd = decide (b.length % 2 = 1)
      ∧ t.csAcc.toNat = placeSum b

/-- R128: the byte-serial engine computes `checksum16`, and touches nothing but its own registers. -/
def Obligations.ByteSerialComputesChecksum : Prop :=
  ∀ (s : State) (b : Bytes), b.length ≤ 65534 →
    ∃ c : BitVec 16, checksum16 b = some c
      ∧ execAll (.csClr :: csPuts b ++ [.csGet]) s = .next { s with
          csAcc := BitVec.ofNat 32 (placeSum b), csOdd := decide (b.length % 2 = 1)
          csCnt := BitVec.ofNat 16 b.length, out := portsVal (c.setWidth 64) }

/-- R129: the operations of the codec and the sequencer neither read nor write the checksum registers
(other values there change nothing they do); CS.CLR, CS.PUT and CS.GET read and write nothing but
those registers and are accepted in every state of the sequencer. -/
def Obligations.ChecksumRegistersIndependent : Prop :=
  (∀ (i : Instr) (s : State) (a : BitVec 32) (o : Bool) (c : BitVec 16),
    family i ≠ .checksum → family i ≠ .control →
    exec i { s with csAcc := a, csOdd := o, csCnt := c }
        = mapNext (fun t => { t with csAcc := a, csOdd := o, csCnt := c }) (exec i s)
    ∧ ∀ t, exec i s = .next t → t.csAcc = s.csAcc ∧ t.csOdd = s.csOdd ∧ t.csCnt = s.csCnt)
  ∧ ∀ (i : Instr) (s u : State), family i = .checksum →
    s.csAcc = u.csAcc → s.csOdd = u.csOdd → s.csCnt = u.csCnt →
    ∃ (a : BitVec 32) (o : Bool) (c : BitVec 16) (r : ResultPorts),
      exec i s = .next { s with csAcc := a, csOdd := o, csCnt := c, out := r }
      ∧ exec i u = .next { u with csAcc := a, csOdd := o, csCnt := c, out := r }

/-! ## Build -/

/-- R143: BLD.RD builds the 28-byte ReadMem request and stores it as LASTREQ, whatever `cnt` is; with a
request outstanding it is refused. -/
def Obligations.BldRdBuildsReadRequest : Prop :=
  ∀ (rid : BitVec 16) (addr : BitVec 64) (cnt : BitVec 16) (s : State),
    (s.busy = true →
      exec (.bldRd rid addr cnt) s = .next { s with out := portsRefused 2 })
    ∧ (s.busy = false →
      ∃ p, frame 0x4000#16 0x0800#16 rid
            (encBe 8 addr.toNat ++ encBe 2 0 ++ encBe 2 cnt.toNat) = some p
        ∧ p.length = 28
        ∧ exec (.bldRd rid addr cnt) s = .next { s with lastReq := p, out := portsTx p })

/-- R144: BLD.WR.B on `cnt` presented bytes. Above 65516 payload bytes, which only a `MAX_PAYLOAD`
above that allows, the checksum has no value and the build fails: the model's choice (log 8). From
65512 payload bytes on `txlen` shows 24 + cnt modulo 2^16: the model's choice (log 9). -/
def Obligations.BldWrBBuildsWriteRequest : Prop :=
  ∀ (rid : BitVec 16) (addr : BitVec 64) (cnt : BitVec 16) (din : Bytes) (s : State),
    (s.busy = true →
      exec (.bldWrB rid addr cnt din) s = .next { s with out := portsRefused 2 })
    ∧ (s.busy = false → (s.cfg.maxPayload.val < cnt.toNat ∨ 65516 < cnt.toNat) →
      exec (.bldWrB rid addr cnt din) s
        = .next { s with out := portsErr 2 rid 10 })
    ∧ (s.busy = false → cnt.toNat ≤ s.cfg.maxPayload.val → cnt.toNat ≤ 65516 →
      cnt.toNat ≤ din.length →
      ∃ p, frame 0x4000#16 0x0802#16 rid (encBe 8 addr.toNat ++ din.take cnt.toNat) = some p
        ∧ p.length = 24 + cnt.toNat
        ∧ exec (.bldWrB rid addr cnt din) s = .next { s with lastReq := p, out := portsTx p })

/-- A byte-buffer write whose host presents fewer than `cnt` bytes still runs: the presented bytes
stand first in the payload and the others are free values (log 5); for every free value. From 65512
payload bytes on `txlen` shows the length modulo 2^16: the model's choice (log 9). -/
def Obligations.BldWrBKeepsPresentedBytes : Prop :=
  ∀ (rid : BitVec 16) (addr : BitVec 64) (cnt : BitVec 16) (din : Bytes) (s : State),
    s.busy = false → cnt.toNat ≤ s.cfg.maxPayload.val → cnt.toNat ≤ 65516 →
    din.length < cnt.toNat →
    ∃ fill p, fill.length = cnt.toNat - din.length
      ∧ frame 0x4000#16 0x0802#16 rid (encBe 8 addr.toNat ++ (din ++ fill)) = some p
      ∧ exec (.bldWrB rid addr cnt din) s = .next { s with lastReq := p, out := portsTx p }

/-- R145 to R150 with R153: the five scalar builds. A float goes out as its bit pattern (R147). -/
def Obligations.ScalarBuildsWriteRequest : Prop :=
  ∀ (rid : BitVec 16) (addr : BitVec 64) (d16 : BitVec 16) (d32 : BitVec 32) (d64 : BitVec 64),
    BuildsWrite (.bldWrU16 rid addr d16) rid addr (encBe 2 d16.toNat)
    ∧ BuildsWrite (.bldWrU32 rid addr d32) rid addr (encBe 4 d32.toNat)
    ∧ BuildsWrite (.bldWrU64 rid addr d64) rid addr (encBe 8 d64.toNat)
    ∧ BuildsWrite (.bldWrF32 rid addr d32) rid addr (encBe 4 d32.toNat)
    ∧ BuildsWrite (.bldWrF64 rid addr d64) rid addr (encBe 8 d64.toNat)

/-- R151, first sentence: every packet a build or an issue returns is a request packet with the id
given to it, and it is LASTREQ. -/
def Obligations.BuiltPacketIsRequestPacket : Prop :=
  ∀ (i : Instr) (s t : State), family i = .build ∨ isIssue i = true →
    exec i s = .next t → t.out.rc = 0 →
    t.lastReq = t.out.tx ∧ ∃ rid, RequestPacket t.out.tx rid
      ∧ (isIssue i = true → rid = s.reqid + 1 ∧ t.reqid = rid ∧ t.out.orid = rid)
      ∧ (family i = .build → ∀ p, encode i = .issue p → rid = p.rid)

/-- R93 with R52 and R90: the ReadMem request that BLD.RD builds has its fields at their offsets, every
byte of a field in its place, the most significant first. -/
def Obligations.ReadRequestLayout : Prop :=
  ∀ (rid : BitVec 16) (addr : BitVec 64) (cnt : BitVec 16), ∃ p,
    buildRead rid addr cnt = some p
    ∧ p.length = 28 ∧ be16 p 10 = 0x0800#16 ∧ be16 p 12 = 12#16
    ∧ p[0]? = some 0x01#8 ∧ p[1]? = some 0x00#8 ∧ p[10]? = some 0x08#8 ∧ p[11]? = some 0x00#8
    ∧ p[14]? = some (rid.extractLsb' 8 8) ∧ p[15]? = some (rid.extractLsb' 0 8)
    ∧ (∀ k, k < 8 → p[16 + k]? = some (addr.extractLsb' (8 * (7 - k)) 8))
    ∧ p[24]? = some 0x00#8 ∧ p[25]? = some 0x00#8
    ∧ p[26]? = some (cnt.extractLsb' 8 8) ∧ p[27]? = some (cnt.extractLsb' 0 8)
    ∧ memRead p 16 8 = addr.toNat ∧ be16 p 24 = 0#16 ∧ be16 p 26 = cnt
    ∧ ∃ ccd scd rest, decodePacket p = .instr (.pktReadmemReq ccd scd rid rest)
      ∧ (Instr.pktReadmemReq ccd scd rid rest).wellFormed = true

/-- R94 with R52 and R90: the WriteMem request of a payload has its fields at their offsets, every byte
of a field in its place, the most significant first. -/
def Obligations.WriteRequestLayout : Prop :=
  ∀ (c : Config) (rid : BitVec 16) (addr : BitVec 64) (payload : Bytes) (p : Bytes),
    buildWrite c rid addr payload = some p →
    payload.length ≤ c.maxPayload.val ∧ p.length = 24 + payload.length
    ∧ p.length ≤ 24 + c.maxPayload.val ∧ p.length ≤ pktMax c
    ∧ be16 p 10 = 0x0802#16 ∧ (be16 p 12).toNat = 8 + payload.length
    ∧ p[0]? = some 0x01#8 ∧ p[1]? = some 0x00#8 ∧ p[10]? = some 0x08#8 ∧ p[11]? = some 0x02#8
    ∧ p[12]? = some (BitVec.ofNat 8 ((8 + payload.length) / 256))
    ∧ p[13]? = some (BitVec.ofNat 8 (8 + payload.length))
    ∧ p[14]? = some (rid.extractLsb' 8 8) ∧ p[15]? = some (rid.extractLsb' 0 8)
    ∧ (∀ k, k < 8 → p[16 + k]? = some (addr.extractLsb' (8 * (7 - k)) 8))
    ∧ (∀ k, p[24 + k]? = payload[k]?)
    ∧ memRead p 16 8 = addr.toNat ∧ slice p 24 p.length = payload
    ∧ ∃ ccd scd len rest, decodePacket p = .instr (.pktWritememReq ccd scd len rid rest)
      ∧ (Instr.pktWritememReq ccd scd len rid rest).wellFormed = true

/-- R152: two requests that differ only in the request id 0x0000 against 0xFFFF, or only in one word of
the address or of the payload, 0x0000 against 0xFFFF, carry the same two checksums; for ReadMem and for
WriteMem requests. -/
def Obligations.RequestIdBlindSpot : Prop :=
  (∀ (addr : BitVec 64) (cnt : BitVec 16), ∃ p q,
    buildRead 0x0000#16 addr cnt = some p ∧ buildRead 0xFFFF#16 addr cnt = some q
    ∧ be16 p 14 = 0x0000#16 ∧ be16 q 14 = 0xFFFF#16 ∧ SameChecksums p q)
  ∧ (∀ (c : Config) (addr : BitVec 64) (payload p q : Bytes),
    buildWrite c 0x0000#16 addr payload = some p → buildWrite c 0xFFFF#16 addr payload = some q →
    be16 p 14 = 0x0000#16 ∧ be16 q 14 = 0xFFFF#16 ∧ SameChecksums p q)
  ∧ (∀ (rid : BitVec 16) (addr addr' : BitVec 64) (cnt : BitVec 16) (j : Nat), j < 4 →
    WordFlip j addr addr' → ∃ p q,
      buildRead rid addr cnt = some p ∧ buildRead rid addr' cnt = some q ∧ SameChecksums p q)
  ∧ (∀ (c : Config) (rid : BitVec 16) (addr addr' : BitVec 64) (payload p q : Bytes) (j : Nat), j < 4 →
    WordFlip j addr addr' →
    buildWrite c rid addr payload = some p → buildWrite c rid addr' payload = some q →
    SameChecksums p q)
  ∧ ∀ (c : Config) (rid : BitVec 16) (addr : BitVec 64) (before after p q : Bytes),
    before.length % 2 = 0 →
    buildWrite c rid addr (before ++ [0x00#8, 0x00#8] ++ after) = some p →
    buildWrite c rid addr (before ++ [0xFF#8, 0xFF#8] ++ after) = some q →
    SameChecksums p q

/-! ## Validate and extract

`rxMax` is RX_MAX. Its value for a `MAX_PAYLOAD` from 0 to 3 is the model's choice (log 17), here and in
every statement below that speaks of it. -/

/-- VAL.RD and VAL.WR on an acceptable acknowledgement return Ok (R161, R164, R165): a read
acknowledgement with the expected id, a write acknowledgement with any id, `warn` telling a foreign
one. No register changes. For a `MAX_PAYLOAD` from 0 to 3 the value of RX_MAX is the model's choice
(log 17). -/
def Obligations.ValidationAcceptsAck : Prop :=
  ∀ (pkt : Bytes) (rid : BitVec 16) (s : State), pkt.length ≤ rxMax s.cfg →
    (AcceptableAck s.cfg 0x0801#16 pkt → be16 pkt 14 = rid →
      exec (.valRd pkt rid) s = .next { s with out := portsOk })
    ∧ (AcceptableAck s.cfg 0x0803#16 pkt →
      exec (.valWr pkt rid) s = .next { s with
        out := { portsOk with warn := BitVec.ofBool (decide (be16 pkt 14 ≠ rid)) } })

/-- R161 with R164, R165 and R244: VAL.RD and VAL.WR report the first check that fails, in the source's
order, by its step number, with the expected id, and Ok where none fails; no register changes. That a
range which has no checksum, of more than 65534 bytes, fails at step 4 is the model's choice (log 8).
For a `MAX_PAYLOAD` from 0 to 3 the value of RX_MAX is the model's choice (log 17). -/
def Obligations.ValidationReportsFirstFailure : Prop :=
  ∀ (pkt : Bytes) (rid : BitVec 16) (s : State), pkt.length ≤ rxMax s.cfg →
    (exec (.valRd pkt rid) s = .next { s with
      out := match firstFailure s.cfg pkt rid true with
        | none => portsOk
        | some f => portsErr f.kind rid f.step })
    ∧ ∃ w : BitVec 1, exec (.valWr pkt rid) s = .next { s with
      out := match firstFailure s.cfg pkt rid false with
        | none => { portsOk with warn := w }
        | some f => { portsErr f.kind rid f.step with warn := w } }

/-- R163: `warn` is 1 exactly for the validation of a write acknowledgement whose steps 0 and 1 passed
and whose request id differs from the expected one, by VAL.WR or by an SQ.ACK of kind ACK. For a
`MAX_PAYLOAD` from 0 to 3 the value of RX_MAX is the model's choice (log 17). -/
def Obligations.WarnExactlyOnForeignWriteAck : Prop :=
  ∀ (i : Instr) (s t : State), family i ≠ .packet → exec i s = .next t →
    (t.out.warn = 1 ↔
      ∃ pkt rid, pkt.length ≤ rxMax s.cfg ∧ 16 ≤ pkt.length ∧ be16 pkt 0 = 0x0100#16
        ∧ be16 pkt 14 ≠ rid
        ∧ (i = .valWr pkt rid
          ∨ ∃ cap, i = .sqAck pkt cap ∧ s.busy = true ∧ s.expect.kind = .ack ∧ rid = s.reqid))

/-- R167: a validation or an extraction writes no register on any outcome, and an error carries the
expected id. -/
def Obligations.CodecWritesNoRegister : Prop :=
  ∀ (i : Instr) (s : State), family i = .validate ∨ family i = .extract →
    ∃ r : ResultPorts, exec i s = .next { s with out := r }
      ∧ ∀ rid, ridOperand i = some rid → r.rc = 1 → r.erid = rid

/-- R160: a packet longer than RX_MAX is refused by every validation and extraction; the empty packet
is judged and fails at step 0. For a `MAX_PAYLOAD` from 0 to 3 the value of RX_MAX is the model's
choice (log 17). -/
def Obligations.ReceiveRangeRule : Prop :=
  ∀ (i : Instr) (s : State) (pkt : Bytes) (rid : BitVec 16),
    pktOperand i = some pkt → ridOperand i = some rid →
    (rxMax s.cfg < pkt.length → exec i s = .next { s with out := portsRefused 5 })
    ∧ (pkt = [] → exec i s = .next { s with out := portsErr 2 rid 0 })

/-- R166: bytes after the advertised SCD are ignored by every validation and extraction. For a
`MAX_PAYLOAD` from 0 to 3 the value of RX_MAX is the model's choice (log 17). -/
def Obligations.TrailingBytesIgnored : Prop :=
  ∀ (pkt extra : Bytes) (rid cap : BitVec 16) (s : State),
    16 ≤ pkt.length → 16 + (be16 pkt 12).toNat ≤ pkt.length →
    (pkt ++ extra).length ≤ rxMax s.cfg →
    exec (.valRd (pkt ++ extra) rid) s = exec (.valRd pkt rid) s
    ∧ exec (.valWr (pkt ++ extra) rid) s = exec (.valWr pkt rid) s
    ∧ exec (.extB (pkt ++ extra) rid cap) s = exec (.extB pkt rid cap) s
    ∧ exec (.extU16 (pkt ++ extra) rid) s = exec (.extU16 pkt rid) s
    ∧ exec (.extU32 (pkt ++ extra) rid) s = exec (.extU32 pkt rid) s
    ∧ exec (.extU64 (pkt ++ extra) rid) s = exec (.extU64 pkt rid) s
    ∧ exec (.extF32 (pkt ++ extra) rid) s = exec (.extF32 pkt rid) s
    ∧ exec (.extF64 (pkt ++ extra) rid) s = exec (.extF64 pkt rid) s

/-- R184 to R188 with R181 and R182: the five scalar extractions deliver the leading bytes of the
payload, big-endian and zero-extended, or fail at step 8 where the payload is shorter. For a
`MAX_PAYLOAD` from 0 to 3 the value of RX_MAX is the model's choice (log 17). -/
def Obligations.ScalarExtractDelivers : Prop :=
  ∀ (pkt : Bytes) (rid : BitVec 16),
    ExtractsScalar (.extU16 pkt rid) pkt rid 2
    ∧ ExtractsScalar (.extU32 pkt rid) pkt rid 4
    ∧ ExtractsScalar (.extU64 pkt rid) pkt rid 8
    ∧ ExtractsScalar (.extF32 pkt rid) pkt rid 4
    ∧ ExtractsScalar (.extF64 pkt rid) pkt rid 8

/-- R183: EXT.B copies what fits the caller's buffer, and says Trunc where not all of it does. For a
`MAX_PAYLOAD` from 0 to 3 the value of RX_MAX is the model's choice (log 17). -/
def Obligations.ExtBCopiesPayload : Prop :=
  ∀ (pkt : Bytes) (rid cap : BitVec 16) (s : State), pkt.length ≤ rxMax s.cfg →
    AcceptableAck s.cfg 0x0801#16 pkt → be16 pkt 14 = rid →
    ((be16 pkt 12).toNat ≤ cap.toNat →
      exec (.extB pkt rid cap) s = .next { s with
        out := portsDout (slice pkt 16 (16 + (be16 pkt 12).toNat)) (be16 pkt 12) (be16 pkt 12) })
    ∧ (cap.toNat < (be16 pkt 12).toNat →
      exec (.extB pkt rid cap) s = .next { s with
        out := portsTrunc (slice pkt 16 (16 + cap.toNat)) cap (be16 pkt 12) })

/-- An extraction reports what VAL.RD reports where the acknowledgement is rejected (R180, R181). -/
def Obligations.ExtractionValidatesFirst : Prop :=
  ∀ (i : Instr) (pkt : Bytes) (rid : BitVec 16) (s t : State), family i = .extract →
    pktOperand i = some pkt → ridOperand i = some rid →
    exec (.valRd pkt rid) s = .next t → t.out.rc ≠ 0 → exec i s = .next t

/-- R15 and R52: byte `k` of `enc_be(v, n)` is `v[8(n-1-k)+7 : 8(n-1-k)]`, MemRead weighs the byte at the
lowest index most, MemWrite replaces exactly the field, and reading back an encoded value gives the
value (R189). -/
def Obligations.NumericRoundTrip : Prop :=
  ∀ (n : Nat) (v : BitVec (8 * n)),
    (encBe n v.toNat).length = n
    ∧ (∀ k, k < n → (encBe n v.toNat)[k]? = some (v.extractLsb' (8 * (n - 1 - k)) 8))
    ∧ memRead (encBe n v.toNat) 0 n = v.toNat
    ∧ (∀ (b : Bytes) (off : Nat), off + 2 ≤ b.length →
        be16 b off = b.getD off 0 ++ b.getD (off + 1) 0)
    ∧ ∀ (b : Bytes) (off : Nat), off + n ≤ b.length →
      memRead b off n = beValue b off n
      ∧ (memWrite b off n v.toNat).length = b.length
      ∧ memRead (memWrite b off n v.toNat) off n = v.toNat
      ∧ ∀ j, j < off ∨ off + n ≤ j → (memWrite b off n v.toNat)[j]? = b[j]?

/-- The source's round-trip property (R151, S4): an acknowledgement framed with the matching id, a
status with bit 15 clear and a payload within MAX_PAYLOAD validates, for every id. -/
def Obligations.FramedAckValidates : Prop :=
  ∀ (s : State) (status rid : BitVec 16) (scd : Bytes), status.getLsbD 15 = false →
    scd.length ≤ s.cfg.maxPayload.val →
    (∃ p, frame status 0x0801#16 rid scd = some p
      ∧ exec (.valRd p rid) s = .next { s with out := portsOk })
    ∧ (∃ p, frame status 0x0803#16 rid scd = some p
      ∧ exec (.valWr p rid) s = .next { s with out := portsOk })

/-! ## The Request Sequencer -/

/-- R203 to R208: the six read issues, with R200 to R202. -/
def Obligations.ReadIssues : Prop :=
  ∀ (addr : BitVec 64) (cnt : BitVec 16),
    IssuesRead (.sqRdB addr cnt) addr cnt .bytes cnt
    ∧ IssuesRead (.sqRdU16 addr) addr 2 .u16 1
    ∧ IssuesRead (.sqRdU32 addr) addr 4 .u32 1
    ∧ IssuesRead (.sqRdU64 addr) addr 8 .u64 1
    ∧ IssuesRead (.sqRdF32 addr) addr 4 .f32 1
    ∧ IssuesRead (.sqRdF64 addr) addr 8 .f64 1

/-- R210 to R214 with R218: the five scalar write issues, with R200 to R202 and R217. -/
def Obligations.ScalarWriteIssues : Prop :=
  ∀ (addr : BitVec 64) (d16 : BitVec 16) (d32 : BitVec 32) (d64 : BitVec 64),
    IssuesWrite (.sqWrU16 addr d16) addr (encBe 2 d16.toNat)
    ∧ IssuesWrite (.sqWrU32 addr d32) addr (encBe 4 d32.toNat)
    ∧ IssuesWrite (.sqWrU64 addr d64) addr (encBe 8 d64.toNat)
    ∧ IssuesWrite (.sqWrF32 addr d32) addr (encBe 4 d32.toNat)
    ∧ IssuesWrite (.sqWrF64 addr d64) addr (encBe 8 d64.toNat)

/-- R209 with R217: SQ.WR.B issues, or consumes an id and fails where the payload is too long. Above
65516 payload bytes the failure is the model's choice (log 8). A payload of which the host presents
fewer than `cnt` bytes is issued too, the others being free values (log 5): for every free value. From
65512 payload bytes on `txlen` shows the length modulo 2^16: the model's choice (log 9). -/
def Obligations.ByteWriteIssue : Prop :=
  ∀ (addr : BitVec 64) (cnt : BitVec 16) (din : Bytes) (s : State),
    (s.busy = true →
      exec (.sqWrB addr cnt din) s = .next { s with out := portsRefused 2 })
    ∧ (s.busy = false → (s.cfg.maxPayload.val < cnt.toNat ∨ 65516 < cnt.toNat) →
      exec (.sqWrB addr cnt din) s = .next { s with
        reqid := s.reqid + 1
        out := { portsErr 2 (s.reqid + 1) 10 with orid := s.reqid + 1 } })
    ∧ (s.busy = false → cnt.toNat ≤ s.cfg.maxPayload.val → cnt.toNat ≤ 65516 →
      cnt.toNat ≤ din.length →
      ∃ p, frame 0x4000#16 0x0802#16 (s.reqid + 1)
            (encBe 8 addr.toNat ++ din.take cnt.toNat) = some p
        ∧ p.length = 24 + cnt.toNat
        ∧ exec (.sqWrB addr cnt din) s = .next { s with
            reqid := s.reqid + 1, lastReq := p, rsync := .idle, busy := true
            expect := ⟨.ack, 0, 20⟩
            out := portsIssue p (s.reqid + 1) (decide (s.rsync = .awaitingFlush)) })
    ∧ (s.busy = false → cnt.toNat ≤ s.cfg.maxPayload.val → cnt.toNat ≤ 65516 →
      din.length < cnt.toNat →
      ∃ fill p, fill.length = cnt.toNat - din.length
        ∧ frame 0x4000#16 0x0802#16 (s.reqid + 1)
            (encBe 8 addr.toNat ++ (din ++ fill)) = some p
        ∧ exec (.sqWrB addr cnt din) s = .next { s with
            reqid := s.reqid + 1, lastReq := p, rsync := .idle, busy := true
            expect := ⟨.ack, 0, 20⟩
            out := portsIssue p (s.reqid + 1) (decide (s.rsync = .awaitingFlush)) })

/-- R215: SQ.ACK returns what VAL.WR or the EXT operation of the expected kind returns for REQID, ends
the request, and owes a drain after Err or Trunc; the refusals and the empty packet come first. For a
`MAX_PAYLOAD` from 0 to 3 the value of RX_MAX is the model's choice (log 17). -/
def Obligations.AckCompletesRequest : Prop :=
  ∀ (pkt : Bytes) (cap : BitVec 16) (s : State),
    (s.busy = false → exec (.sqAck pkt cap) s = .next { s with out := portsRefused 3 })
    ∧ (s.busy = true → rxMax s.cfg < pkt.length →
      exec (.sqAck pkt cap) s = .next { s with out := portsRefused 5 })
    ∧ (s.busy = true → pkt = [] → exec (.sqAck pkt cap) s = exec .sqTmo s)
    ∧ (s.busy = true → pkt ≠ [] → pkt.length ≤ rxMax s.cfg → s.expect.kind ≠ .none →
      ∃ r : ResultPorts,
        (s.expect.kind = .ack → exec (.valWr pkt s.reqid) s = .next { s with out := r })
        ∧ (s.expect.kind = .bytes → exec (.extB pkt s.reqid cap) s = .next { s with out := r })
        ∧ (s.expect.kind = .u16 → exec (.extU16 pkt s.reqid) s = .next { s with out := r })
        ∧ (s.expect.kind = .u32 → exec (.extU32 pkt s.reqid) s = .next { s with out := r })
        ∧ (s.expect.kind = .u64 → exec (.extU64 pkt s.reqid) s = .next { s with out := r })
        ∧ (s.expect.kind = .f32 → exec (.extF32 pkt s.reqid) s = .next { s with out := r })
        ∧ (s.expect.kind = .f64 → exec (.extF64 pkt s.reqid) s = .next { s with out := r })
        ∧ exec (.sqAck pkt cap) s = .next { s with
            busy := false
            rsync := if r.rc = 1 ∨ r.rc = 2 then .awaitingFlush else s.rsync
            out := r })

/-- R216: SQ.TMO ends the request with MessageTimeout; a drain is owed if a timeout was configured. -/
def Obligations.TimeoutEndsRequest : Prop :=
  ∀ s : State,
    (s.busy = false → exec .sqTmo s = .next { s with out := portsRefused 3 })
    ∧ (s.busy = true → s.tmo ≠ 0 → exec .sqTmo s = .next { s with
        busy := false, rsync := .awaitingFlush
        out := portsErr s.cfg.codes.msgTimeout s.reqid 9 })
    ∧ (s.busy = true → s.tmo = 0 → exec .sqTmo s = .next { s with
        busy := false, out := portsErr s.cfg.codes.msgTimeout s.reqid 9 })

/-- exec faults if and only if it is SQ.ACK of a packet where BUSY is 1 and no expectation is recorded,
a state R37 (a) excludes: the model's choice (log 10). Every other instruction, and SQ.ACK in every
other state, answers a next state. For a `MAX_PAYLOAD` from 0 to 3 the value of RX_MAX is the model's
choice (log 17). -/
def Obligations.OnlyStopIsMissingExpectation : Prop :=
  ∀ (i : Instr) (s : State),
    (exec i s = .fault .expectNone ↔
      ∃ pkt cap, i = .sqAck pkt cap ∧ s.busy = true ∧ pkt ≠ [] ∧ pkt.length ≤ rxMax s.cfg
        ∧ s.expect.kind = .none)
    ∧ (exec i s ≠ .fault .expectNone → ∃ t, exec i s = .next t)

/-- R141, R200, R245 and R247, but for ILLEGAL_OP: an operation is refused exactly for the causes of
the table (R126, R160, R215, R216 with the first two), with the number of the table and before any
other test, and a refusal changes no register. A reserved opcode is no instruction:
`ReservedOpcodeRefused` speaks of it. For a `MAX_PAYLOAD` from 0 to 3 the value of RX_MAX is the
model's choice (log 17). -/
def Obligations.RefusedExactlyForCause : Prop :=
  ∀ (i : Instr) (s : State),
    (∀ r, refusalCause i s = some r → exec i s = .next { s with out := portsRefused r })
    ∧ (refusalCause i s = none → family i ≠ .packet →
        ∀ t, exec i s = .next t → t.out.rc ≠ 3)

/-- R24: REQID changes only by an issue that is not refused, by one modulo 2^16, and by SRST; the new
value is embedded in the packet of a successful issue. -/
def Obligations.ReqidOnlyByIssue : Prop :=
  ∀ (i : Instr) (s t : State), exec i s = .next t →
    (i = .srst → t.reqid = s.cfg.reqidReset)
    ∧ (i ≠ .srst → isIssue i = false → t.reqid = s.reqid)
    ∧ (isIssue i = true → s.busy = true → t.reqid = s.reqid)
    ∧ (isIssue i = true → s.busy = false → t.reqid.toNat = (s.reqid.toNat + 1) % 65536)
    ∧ (isIssue i = true → t.out.rc = 0 → be16 t.lastReq 14 = t.reqid)

/-- R220: between an issue and its completion no packet is handed out and LASTREQ, REQID and EXPECT do
not change. SRST abandons the request (R230) and RDST returns the stored packet (R232): they are not
meant. -/
def Obligations.OneRequestOutstanding : Prop :=
  ∀ (i : Instr) (s t : State), s.busy = true → i ≠ .srst → exec i s = .next t →
    t.lastReq = s.lastReq ∧ t.reqid = s.reqid ∧ t.expect = s.expect
    ∧ (t.busy = true ∨ family i = .complete)
    ∧ (i ≠ .rdst → family i ≠ .packet → t.out.tx = [])

/-- R221: the whole transition table of RSYNC, and `drain` on a successful issue. -/
def Obligations.ResyncTransitionTable : Prop :=
  ∀ (i : Instr) (s t : State), exec i s = .next t →
    (i = .srst → t.rsync = .idle)
    ∧ (isIssue i = true → t.out.rc = 0 →
        t.rsync = .idle ∧ (t.out.drain = 1 ↔ s.rsync = .awaitingFlush))
    ∧ (isIssue i = true → t.out.rc ≠ 0 → t.rsync = s.rsync)
    ∧ (family i = .complete → t.out.rc = 0 ∨ t.out.rc = 3 → t.rsync = s.rsync)
    ∧ (family i = .complete → t.out.rc = 1 ∨ t.out.rc = 2 → t.out.step ≠ 9 →
        t.rsync = .awaitingFlush)
    ∧ (family i = .complete → t.out.rc = 1 → t.out.step = 9 →
        t.rsync = if s.tmo = 0 then s.rsync else .awaitingFlush)
    ∧ (i ≠ .srst → isIssue i = false → family i ≠ .complete → t.rsync = s.rsync)

/-- R248: whenever an instruction moves RSYNC to AwaitingFlush it is a completion of an outstanding
request, and it changes exactly BUSY and RSYNC. -/
def Obligations.FailureEntryChangesTwoRegisters : Prop :=
  ∀ (i : Instr) (s t : State), exec i s = .next t → s.rsync = .idle → t.rsync = .awaitingFlush →
    family i = .complete ∧ s.busy = true
    ∧ t = { s with busy := false, rsync := .awaitingFlush, out := t.out }

/-- R83, with the ports of RDST alone (R232): a result port that is not meaningful for a result is zero. -/
def Obligations.MeaninglessPortsAreZero : Prop :=
  ∀ (i : Instr) (s t : State), family i ≠ .packet → exec i s = .next t →
    (t.out.rc ≠ 1 → t.out.kind = 0 ∧ t.out.erid = 0 ∧ t.out.step = 0)
    ∧ (t.out.rc ≠ 3 → t.out.reason = 0)
    ∧ ((∀ p r, i ≠ .valWr p r) → ((∀ p c, i ≠ .sqAck p c) ∨ s.expect.kind ≠ .ack) →
        t.out.warn = 0)
    ∧ (isIssue i = false ∨ t.out.rc ≠ 0 → t.out.drain = 0)
    ∧ (isIssue i = false ∨ (t.out.rc ≠ 0 ∧ t.out.rc ≠ 1) → t.out.orid = 0)
    ∧ (t.out.val ≠ 0 → t.out.rc = 0 ∧ (i = .csGet
        ∨ (family i = .extract ∧ ∀ p r c, i ≠ .extB p r c)
        ∨ ((∃ p c, i = .sqAck p c) ∧ s.expect.kind ≠ .ack ∧ s.expect.kind ≠ .bytes)))
    ∧ ((∀ p r c, i ≠ .extB p r c) → ((∀ p c, i ≠ .sqAck p c) ∨ s.expect.kind ≠ .bytes) →
        t.out.dout = [] ∧ t.out.olen = 0 ∧ t.out.adv = 0)
    ∧ (t.out.rc ≠ 0 → t.out.rc ≠ 2 → t.out.dout = [] ∧ t.out.olen = 0 ∧ t.out.adv = 0)
    ∧ (t.out.rc ≠ 0 ∨ (family i ≠ .build ∧ isIssue i = false ∧ i ≠ .rdst) →
        t.out.tx = [] ∧ t.out.txlen = 0)
    ∧ (i ≠ .rdst →
        t.out.reqid = 0 ∧ t.out.busy = 0 ∧ t.out.rsync = 0 ∧ t.out.ekind = 0 ∧ t.out.ecount = 0
        ∧ t.out.elen = 0 ∧ t.out.tmo = 0 ∧ t.out.csacc = 0 ∧ t.out.csodd = 0 ∧ t.out.cscnt = 0)

/-- A read of a scalar from end to end: the issue, and the acknowledgement a conforming device frames
for it, give the value the device sent and leave nothing outstanding (R201, R215, R189). -/
def Obligations.ReadRoundTrip : Prop :=
  ∀ (s : State) (addr : BitVec 64) (v : BitVec 32) (cap : BitVec 16),
    s.busy = false → 4 ≤ s.cfg.maxPayload.val →
    ∃ p ack, frame 0x0000#16 0x0801#16 (s.reqid + 1) (encBe 4 v.toNat) = some ack
      ∧ execAll [.sqRdU32 addr, .sqAck ack cap] s = .next { s with
          reqid := s.reqid + 1, lastReq := p, rsync := .idle, expect := ⟨.u32, 1, 20⟩
          out := portsVal (v.setWidth 64) }

/-! ## Invariants and engines -/

/-- R37, with the bound of R31 and the last sentence of R221: every step keeps them, `issued` telling
whether an issue has succeeded since the last reset. For a `MAX_PAYLOAD` from 0 to 3 the
longest packet, PKT_MAX, is the ReadMem request of 28 bytes: the model's choice (log 17). -/
def Obligations.StepKeepsEngineInvariant : Prop :=
  ∀ (issued : Bool) (s t : State), EngineInv issued s → step s = .next t →
    EngineInv (issuedAfter issued s t) t

/-- Every step keeps LASTREQ empty or a request packet (R28, R151). -/
def Obligations.StepKeepsRequestPacket : Prop :=
  ∀ s t : State, LastReqInv s → step s = .next t → LastReqInv t

/-- Right after reset, in every configuration, the engine's invariants hold with no issue counted, and
LASTREQ is empty. -/
def Obligations.ResetMeetsInvariants : Prop :=
  ∀ c : Config, EngineInv false (State.resetOf c) ∧ LastReqInv (State.resetOf c)
    ∧ (State.resetOf c).lastReq = []

/-- R262: a step of one engine neither reads nor writes another's state: steps of two engines commute
and each does what it does alone. -/
def Obligations.EnginesShareNothing : Prop :=
  ∀ (sys sys1 sys2 : System) (j k : Nat) (s : State), j ≠ k → sys[k]? = some s →
    systemStep j sys = .next sys1 → systemStep k sys1 = .next sys2 →
    sys1[k]? = some s ∧ sys2.length = sys.length
    ∧ (∃ t, step s = .next t ∧ sys2[k]? = some t)
    ∧ ∃ sys3, systemStep k sys = .next sys3 ∧ systemStep j sys3 = .next sys2
end

