-- ==== Sys2Proof/Laws/Bytes.lean ====
section
/-! SUPPORT. Small lemmas about byte sequences and big-endian fields. -/

namespace Sys2Proof.Machine

@[simp] theorem encBe_zero (v : Nat) : encBe 0 v = [] := rfl

theorem encBe_succ (n v : Nat) :
    encBe (n + 1) v = BitVec.ofNat 8 (v / 256 ^ n) :: encBe n v := rfl

@[simp] theorem encBe_length (n v : Nat) : (encBe n v).length = n := by
  induction n with
  | zero => rfl
  | succ n ih => simp [encBe_succ, ih]

@[simp] theorem enc16_length (v : BitVec 16) : (enc16 v).length = 2 := encBe_length 2 _

@[simp] theorem zeros_length (n : Nat) : (zeros n).length = n := by simp [zeros]

@[simp] theorem beNat_nil : beNat [] = 0 := rfl

theorem beNat_cons (b : Byte) (rest : Bytes) :
    beNat (b :: rest) = b.toNat * 256 ^ rest.length + beNat rest := rfl

theorem beNat_encBe_mod (n v : Nat) : beNat (encBe n v) = v % 256 ^ n := by
  induction n with
  | zero => simp [Nat.mod_one]
  | succ n ih =>
    rw [encBe_succ, beNat_cons, encBe_length, ih, Nat.pow_succ, Nat.mod_mul, BitVec.toNat_ofNat]
    ring

theorem beNat_encBe (n v : Nat) (h : v < 256 ^ n) : beNat (encBe n v) = v := by
  rw [beNat_encBe_mod, Nat.mod_eq_of_lt h]

theorem beNat_lt (b : Bytes) : beNat b < 256 ^ b.length := by
  induction b with
  | nil => simp
  | cons x rest ih =>
    rw [beNat_cons, List.length_cons, Nat.pow_succ]
    have hx : x.toNat < 256 := x.isLt
    nlinarith

/-- A sequence is the encoding of what it spells. -/
theorem encBe_beNat (b : Bytes) : encBe b.length (beNat b) = b := by
  have key : ∀ (b : Bytes) (q : Nat), encBe b.length (q * 256 ^ b.length + beNat b) = b := by
    intro b
    induction b with
    | nil => intro q; rfl
    | cons x rest ih =>
      intro q
      have hpos : 0 < 256 ^ rest.length := Nat.pow_pos (by norm_num)
      have hlt := beNat_lt rest
      have hsum : q * 256 ^ (rest.length + 1) + (x.toNat * 256 ^ rest.length + beNat rest)
          = (q * 256 + x.toNat) * 256 ^ rest.length + beNat rest := by ring
      rw [List.length_cons, beNat_cons, encBe_succ, hsum, ih]
      congr 1
      rw [Nat.mul_comm, Nat.mul_add_div hpos, Nat.div_eq_of_lt hlt]
      apply BitVec.eq_of_toNat_eq
      have hx : x.toNat < 256 := x.isLt
      simp [BitVec.toNat_ofNat]
      omega
  simpa using key b 0

theorem slice_length (b : Bytes) (i j : Nat) (h : j ≤ b.length) : (slice b i j).length = j - i := by
  simp [slice]; omega

/-- A slice that lies in the first part of an append does not see the second. -/
theorem slice_append_left (a b : Bytes) (i j : Nat) (h : j ≤ a.length) :
    slice (a ++ b) i j = slice a i j := by
  unfold slice
  by_cases hi : i ≤ a.length
  · rw [List.drop_append_of_le_length hi, List.take_append_of_le_length]
    simp; omega
  · have : j - i = 0 := by omega
    simp [this]

/-- A slice that begins after the first part of an append does not see it. -/
theorem slice_append_right (a b : Bytes) (i j : Nat) :
    slice (a ++ b) (a.length + i) (a.length + j) = slice b i j := by
  unfold slice
  rw [List.drop_append]
  congr 1
  · omega
  · simp

theorem slice_append_at (a b : Bytes) (n i j : Nat) (h : a.length = n) :
    slice (a ++ b) (n + i) (n + j) = slice b i j := by
  subst h; exact slice_append_right a b i j

theorem slice_all (b : Bytes) : slice b 0 b.length = b := by simp [slice]

theorem memRead_append_left (a b : Bytes) (off n : Nat) (h : off + n ≤ a.length) :
    memRead (a ++ b) off n = memRead a off n := by
  unfold memRead; rw [slice_append_left _ _ _ _ h]

theorem memRead_append_at (a b : Bytes) (off n m : Nat) (h : a.length = m) :
    memRead (a ++ b) (m + off) n = memRead b off n := by
  unfold memRead; rw [Nat.add_assoc, slice_append_at _ _ _ _ _ h]

theorem be16_append_left (a b : Bytes) (off : Nat) (h : off + 2 ≤ a.length) :
    be16 (a ++ b) off = be16 a off := by
  unfold be16; rw [memRead_append_left _ _ _ _ h]

theorem be16_append_at (a b : Bytes) (off m : Nat) (h : a.length = m) :
    be16 (a ++ b) (m + off) = be16 b off := by
  unfold be16; rw [memRead_append_at _ _ _ _ _ h]

theorem memRead_encBe_append (n v : Nat) (rest : Bytes) (h : v < 256 ^ n) :
    memRead (encBe n v ++ rest) 0 n = v := by
  rw [memRead_append_left _ _ _ _ (by simp)]
  unfold memRead
  have := slice_all (encBe n v)
  rw [encBe_length] at this
  rw [Nat.zero_add, this, beNat_encBe _ _ h]

theorem be16_enc16_append (v : BitVec 16) (rest : Bytes) : be16 (enc16 v ++ rest) 0 = v := by
  unfold be16 enc16
  rw [memRead_encBe_append _ _ _ (by have := v.isLt; omega)]
  simp

/-- The k-th 16-bit field of a packet (R90), by skipping the fields before it. -/
theorem be16_skip (v : BitVec 16) (rest : Bytes) (off : Nat) :
    be16 (enc16 v ++ rest) (2 + off) = be16 rest off :=
  be16_append_at _ _ _ _ (by simp)

theorem enc16_be16 (x y : Byte) (rest : Bytes) : enc16 (be16 (x :: y :: rest) 0) = [x, y] := by
  have h : be16 (x :: y :: rest) 0 = BitVec.ofNat 16 (beNat [x, y]) := rfl
  have hlt := beNat_lt [x, y]
  rw [h, enc16, BitVec.toNat_ofNat, Nat.mod_eq_of_lt (by simpa using hlt)]
  exact encBe_beNat [x, y]

section Packet

variable (pre ccd scd chan w8 cmd len rid : BitVec 16) (rest : Bytes)

@[simp] theorem packetBytes_length :
    (packetBytes pre ccd scd chan w8 cmd len rid rest).length = 16 + rest.length := by
  simp [packetBytes]; omega

@[simp] theorem pktPreamble_packetBytes :
    pktPreamble (packetBytes pre ccd scd chan w8 cmd len rid rest) = pre := by
  simp only [pktPreamble, packetBytes, List.append_assoc, be16_enc16_append]

@[simp] theorem pktCcd_packetBytes :
    pktCcd (packetBytes pre ccd scd chan w8 cmd len rid rest) = ccd := by
  simp only [pktCcd, packetBytes, List.append_assoc]
  rw [be16_skip _ _ 0, be16_enc16_append]

@[simp] theorem pktScd_packetBytes :
    pktScd (packetBytes pre ccd scd chan w8 cmd len rid rest) = scd := by
  simp only [pktScd, packetBytes, List.append_assoc]
  rw [be16_skip _ _ 2, be16_skip _ _ 0, be16_enc16_append]

@[simp] theorem pktChannel_packetBytes :
    pktChannel (packetBytes pre ccd scd chan w8 cmd len rid rest) = chan := by
  simp only [pktChannel, packetBytes, List.append_assoc]
  rw [be16_skip _ _ 4, be16_skip _ _ 2, be16_skip _ _ 0, be16_enc16_append]

@[simp] theorem pktWord8_packetBytes :
    pktWord8 (packetBytes pre ccd scd chan w8 cmd len rid rest) = w8 := by
  simp only [pktWord8, packetBytes, List.append_assoc]
  rw [be16_skip _ _ 6, be16_skip _ _ 4, be16_skip _ _ 2, be16_skip _ _ 0, be16_enc16_append]

@[simp] theorem pktCommand_packetBytes :
    pktCommand (packetBytes pre ccd scd chan w8 cmd len rid rest) = cmd := by
  simp only [pktCommand, packetBytes, List.append_assoc]
  rw [be16_skip _ _ 8, be16_skip _ _ 6, be16_skip _ _ 4, be16_skip _ _ 2, be16_skip _ _ 0,
    be16_enc16_append]

@[simp] theorem pktLen_packetBytes :
    pktLen (packetBytes pre ccd scd chan w8 cmd len rid rest) = len := by
  simp only [pktLen, packetBytes, List.append_assoc]
  rw [be16_skip _ _ 10, be16_skip _ _ 8, be16_skip _ _ 6, be16_skip _ _ 4, be16_skip _ _ 2,
    be16_skip _ _ 0, be16_enc16_append]

@[simp] theorem pktRid_packetBytes :
    pktRid (packetBytes pre ccd scd chan w8 cmd len rid rest) = rid := by
  simp only [pktRid, packetBytes, List.append_assoc]
  rw [be16_skip _ _ 12, be16_skip _ _ 10, be16_skip _ _ 8, be16_skip _ _ 6, be16_skip _ _ 4,
    be16_skip _ _ 2, be16_skip _ _ 0, be16_enc16_append]

@[simp] theorem packetBytes_drop :
    (packetBytes pre ccd scd chan w8 cmd len rid rest).drop 16 = rest := by
  unfold packetBytes
  exact List.drop_left' (by simp)

/-- What follows the header is read at 16 plus its own offset. -/
theorem memRead_packetBytes (off n : Nat) :
    memRead (packetBytes pre ccd scd chan w8 cmd len rid rest) (16 + off) n = memRead rest off n := by
  unfold packetBytes
  exact memRead_append_at _ _ _ _ _ (by simp)

theorem slice_packetBytes (i j : Nat) :
    slice (packetBytes pre ccd scd chan w8 cmd len rid rest) (16 + i) (16 + j) = slice rest i j := by
  unfold packetBytes
  exact slice_append_at _ _ _ _ _ (by simp)

/-- The checksummed part of a packet, from byte 6 (R101). -/
theorem slice_from_six (j : Nat) :
    slice (packetBytes pre ccd scd chan w8 cmd len rid rest) 6 (16 + j)
      = enc16 chan ++ enc16 w8 ++ enc16 cmd ++ enc16 len ++ enc16 rid ++ rest.take j := by
  have h6 : packetBytes pre ccd scd chan w8 cmd len rid rest
      = (enc16 pre ++ enc16 ccd ++ enc16 scd)
        ++ ((enc16 chan ++ enc16 w8 ++ enc16 cmd ++ enc16 len ++ enc16 rid) ++ rest) := by
    simp [packetBytes]
  rw [h6, show (16 + j) = 6 + (10 + j) by omega]
  have := slice_append_at (enc16 pre ++ enc16 ccd ++ enc16 scd)
    ((enc16 chan ++ enc16 w8 ++ enc16 cmd ++ enc16 len ++ enc16 rid) ++ rest) 6 0 (10 + j)
    (by simp)
  rw [Nat.add_zero] at this
  rw [this]
  simp only [slice, List.drop_zero, Nat.sub_zero]
  rw [List.take_append, List.take_of_length_le (by simp)]
  simp

end Packet

/-- Every byte sequence of at least 16 bytes is the packet of its own fields. -/
theorem packetBytes_of_fields (b : Bytes) (h : 16 ≤ b.length) :
    packetBytes (pktPreamble b) (pktCcd b) (pktScd b) (pktChannel b) (pktWord8 b) (pktCommand b)
      (pktLen b) (pktRid b) (b.drop 16) = b := by
  match b, h with
  | b0 :: b1 :: b2 :: b3 :: b4 :: b5 :: b6 :: b7 :: b8 :: b9 :: b10 :: b11 :: b12 :: b13 :: b14
      :: b15 :: rest, _ =>
    have step2 : ∀ (x y : Byte) (t : Bytes) (off : Nat), be16 (x :: y :: t) (2 + off) = be16 t off :=
      fun x y t off => be16_append_at [x, y] t off 2 rfl
    simp only [packetBytes, pktPreamble, pktCcd, pktScd, pktChannel, pktWord8, pktCommand, pktLen,
      pktRid]
    rw [show (2 : Nat) = 2 + 0 by rfl, show (4 : Nat) = 2 + (2 + 0) by rfl,
      show (6 : Nat) = 2 + (2 + (2 + 0)) by rfl, show (8 : Nat) = 2 + (2 + (2 + (2 + 0))) by rfl,
      show (10 : Nat) = 2 + (2 + (2 + (2 + (2 + 0)))) by rfl,
      show (12 : Nat) = 2 + (2 + (2 + (2 + (2 + (2 + 0))))) by rfl,
      show (14 : Nat) = 2 + (2 + (2 + (2 + (2 + (2 + (2 + 0)))))) by rfl]
    simp only [step2, enc16_be16]
    simp

end Sys2Proof.Machine
end

