-- ==== Sys2Proof/Laws/Checksum.lean ====
section
/-! SUPPORT. Lemmas about the word sum and the fold of `checksum16`. -/

namespace Sys2Proof.Machine

@[simp] theorem sumWords_nil : sumWords [] = 0 := rfl

@[simp] theorem sumWords_one (h : Byte) : sumWords [h] = h.toNat * 256 := rfl

theorem sumWords_cons (h l : Byte) (rest : Bytes) :
    sumWords (h :: l :: rest) = (h.toNat * 256 + l.toNat) + sumWords rest := rfl

/-- The words of an append add up where the first part has even length. -/
theorem sumWords_append (a b : Bytes) (h : a.length % 2 = 0) :
    sumWords (a ++ b) = sumWords a + sumWords b := by
  induction a using sumWords.induct with
  | case1 => simp
  | case2 x => simp at h
  | case3 x y rest ih =>
    have : rest.length % 2 = 0 := by simp at h; omega
    rw [List.cons_append, List.cons_append, sumWords_cons, sumWords_cons, ih this]
    omega

/-- The sum of a byte string grows by at most 65535 per word (R31). -/
theorem sumWords_le (b : Bytes) :
    sumWords b ≤ 65535 * (b.length / 2) + 65280 * (b.length % 2) := by
  induction b using sumWords.induct with
  | case1 => simp
  | case2 x =>
    have := x.isLt
    simp
    omega
  | case3 x y rest ih =>
    have hx := x.isLt
    have hy := y.isLt
    rw [sumWords_cons]
    simp only [List.length_cons]
    omega

/-- The accumulator of a byte string of legal length fits 31 bits (R31). -/
theorem sumWords_lt (b : Bytes) (h : b.length ≤ 65534) : sumWords b < 2 ^ 31 := by
  have := sumWords_le b
  omega

/-- After two rounds of folding no carry is left of a 32-bit accumulator (R120). -/
theorem foldCarry_lt (acc : Nat) (h : acc < 2 ^ 32) : foldCarry 2 acc < 65536 := by
  unfold foldCarry foldCarry foldCarry
  split
  · omega
  · split <;> omega

/-- Folding keeps the accumulator modulo 0xFFFF. -/
theorem foldCarry_mod (fuel acc : Nat) : foldCarry fuel acc % 65535 = acc % 65535 := by
  induction fuel generalizing acc with
  | zero => rfl
  | succ n ih =>
    unfold foldCarry
    split
    · rfl
    · rw [ih]; omega

/-- Folding gives zero only from zero. -/
theorem foldCarry_eq_zero (fuel acc : Nat) : foldCarry fuel acc = 0 ↔ acc = 0 := by
  induction fuel generalizing acc with
  | zero => rfl
  | succ n ih =>
    unfold foldCarry
    split
    · rfl
    · rw [ih]; omega

theorem checksum16_some (b : Bytes) (h : b.length ≤ 65534) :
    checksum16 b = some (finish (sumWords b)) := if_pos h

theorem checksum16_none (b : Bytes) (h : 65534 < b.length) : checksum16 b = none :=
  if_neg (by simpa [csMaxLen] using h)

end Sys2Proof.Machine
end

