-- ==== Sys2Proof/Laws/Codec.lean ====
section
/-! SUPPORT. What framing, validation and extraction can answer. -/

namespace Sys2Proof.Machine

/-- The ten header bytes from the channel id to the request id, as `frame` writes them (R142). -/
def frameBody (word8 cmd rid : BitVec 16) (scd : Bytes) : Bytes :=
  enc16 channel ++ enc16 word8 ++ enc16 cmd ++ enc16 (BitVec.ofNat 16 scd.length) ++ enc16 rid

@[simp] theorem frameBody_length (word8 cmd rid : BitVec 16) (scd : Bytes) :
    (frameBody word8 cmd rid scd).length = 10 := by simp [frameBody]

/-- `frame` within the checksum's contract: the packet of R90 with both checksums (R101). -/
theorem frame_eq (word8 cmd rid : BitVec 16) (scd : Bytes) (h : 10 + scd.length ≤ 65534) :
    frame word8 cmd rid scd = some (packetBytes preamble
      (finish (sumWords (frameBody word8 cmd rid scd)))
      (finish (sumWords (frameBody word8 cmd rid scd ++ scd)))
      channel word8 cmd (BitVec.ofNat 16 scd.length) rid scd) := by
  have h1 := checksum16_some (frameBody word8 cmd rid scd) (by simp)
  have h2 := checksum16_some (frameBody word8 cmd rid scd ++ scd) (by simp; omega)
  unfold frameBody at h1 h2
  simp only [frame, h1, h2]
  simp only [packetBytes, frameBody, List.append_assoc]

/-- `frame` outside the checksum's contract gives no packet (R121, log 8). -/
theorem frame_none (word8 cmd rid : BitVec 16) (scd : Bytes) (h : 65534 < 10 + scd.length) :
    frame word8 cmd rid scd = none := by
  have h2 := checksum16_none (frameBody word8 cmd rid scd ++ scd) (by simp; omega)
  unfold frameBody at h2
  simp only [frame, h2]
  split
  · simp_all
  · rfl

theorem frame_isSome_length (word8 cmd rid : BitVec 16) (scd p : Bytes)
    (h : frame word8 cmd rid scd = some p) : 10 + scd.length ≤ 65534 := by
  by_contra hc
  rw [frame_none _ _ _ _ (by omega)] at h
  cases h

/-- A framed packet is 16 bytes longer than its SCD (R100). -/
theorem frame_length (word8 cmd rid : BitVec 16) (scd p : Bytes)
    (h : frame word8 cmd rid scd = some p) : p.length = 16 + scd.length := by
  rw [frame_eq _ _ _ _ (frame_isSome_length _ _ _ _ _ h)] at h
  cases h
  simp

theorem buildRead_eq (rid : BitVec 16) (addr : BitVec 64) (n : BitVec 16) :
    ∃ p, buildRead rid addr n = some p ∧ p.length = 28 := by
  unfold buildRead
  rw [frame_eq _ _ _ _ (by simp)]
  exact ⟨_, rfl, by simp⟩

theorem buildWrite_fits (c : Config) (rid : BitVec 16) (addr : BitVec 64) (payload : Bytes)
    (h : payload.length ≤ c.maxPayload.val) :
    buildWrite c rid addr payload
      = frame flagAckReq cmdWriteMem rid (encBe 8 addr.toNat ++ payload) := by
  unfold buildWrite; rw [if_neg (by omega)]

theorem buildWrite_long (c : Config) (rid : BitVec 16) (addr : BitVec 64) (payload : Bytes)
    (h : c.maxPayload.val < payload.length) : buildWrite c rid addr payload = none := by
  unfold buildWrite; rw [if_pos h]

/-- A built WriteMem request fits `PKT_MAX` (R59, R94). -/
theorem buildWrite_length (c : Config) (rid : BitVec 16) (addr : BitVec 64) (payload p : Bytes)
    (h : buildWrite c rid addr payload = some p) :
    payload.length ≤ c.maxPayload.val ∧ p.length = 24 + payload.length := by
  by_cases hl : payload.length ≤ c.maxPayload.val
  · rw [buildWrite_fits _ _ _ _ hl] at h
    have := frame_length _ _ _ _ _ h
    simp at this
    exact ⟨hl, by omega⟩
  · rw [buildWrite_long _ _ _ _ (by omega)] at h
    cases h

/-- `din[0..cnt)` has `cnt` bytes, whatever the host presented. -/
@[simp] theorem dinBytes_length (draw : Nat) (cnt : BitVec 16) (din : Bytes) :
    (dinBytes draw cnt din).length = cnt.toNat := by
  unfold dinBytes
  split
  · simp; omega
  · simp; omega

theorem dinBytes_take (draw : Nat) (cnt : BitVec 16) (din : Bytes) (h : cnt.toNat ≤ din.length) :
    dinBytes draw cnt din = din.take cnt.toNat := if_pos h

theorem buildWriteDin_eq (c : Config) (draw : Nat) (rid : BitVec 16) (addr : BitVec 64)
    (cnt : BitVec 16) (din : Bytes) :
    buildWriteDin c draw rid addr cnt din
      = buildWrite c rid addr (dinBytes draw cnt din) := by
  unfold buildWriteDin
  split
  · rw [buildWrite_long]; simpa
  · rfl

/-- A validation of a read acknowledgement never warns (R163). -/
theorem warnFlag_read (pkt : Bytes) (exp : BitVec 16) : warnFlag true pkt exp = false := rfl

/-- Whatever validation answers for a read acknowledgement, `warn` is 0 (R163). -/
theorem validate_read_warn (c : Config) (pkt : Bytes) (exp : BitVec 16) :
    (∃ w, validate c pkt exp true = .pass w ∧ w = false)
    ∨ ∃ k ch w, validate c pkt exp true = .fail k ch w ∧ w = false := by
  unfold validate
  simp only [warnFlag_read]
  repeat' split
  all_goals simp

/-- A validation that passes has every property the checks ask for (R161). -/
theorem validate_pass (c : Config) (pkt : Bytes) (exp : BitVec 16) (isRead w : Bool)
    (h : validate c pkt exp isRead = .pass w) :
    16 ≤ pkt.length ∧ pktPreamble pkt = preamble ∧ (isRead = true → pktRid pkt = exp)
    ∧ checksum16 (ccdRange pkt) = some (pktCcd pkt) ∧ 16 + (pktLen pkt).toNat ≤ pkt.length
    ∧ checksum16 (scdRange pkt) = some (pktScd pkt) ∧ pktCommand pkt = ackCommand isRead
    ∧ (pktLen pkt).toNat ≤ c.maxPayload.val ∧ stError (pktWord8 pkt) = false
    ∧ w = warnFlag isRead pkt exp := by
  unfold validate at h
  simp only [hdrBytes] at h
  repeat' split at h
  all_goals first | (cases h; done) | skip
  cases h
  simp_all

/-- An extraction answers Ok, an error with the expected id, or Trunc (R181). -/
theorem extractScalar_cases (c : Config) (pkt : Bytes) (exp : BitVec 16) (w : Nat) :
    (∃ v, extractScalar c pkt exp w = okVal v)
    ∨ ∃ k ch, extractScalar c pkt exp w = errResult k exp ch ∧ ch ≠ .timeout := by
  unfold extractScalar
  split
  · rename_i kind k w' h
    refine .inr ⟨_, _, rfl, ?_⟩
    unfold validate at h
    repeat' split at h
    all_goals cases h <;> simp
  · split
    · exact .inr ⟨_, _, rfl, by simp⟩
    · exact .inl ⟨_, rfl⟩

theorem extractBytes_cases (c : Config) (pkt : Bytes) (exp cap : BitVec 16) :
    (∃ d m l, extractBytes c pkt exp cap = okDout d m l)
    ∨ (∃ d m l, extractBytes c pkt exp cap = truncDout d m l)
    ∨ ∃ k ch, extractBytes c pkt exp cap = errResult k exp ch ∧ ch ≠ .timeout := by
  unfold extractBytes
  split
  · rename_i kind k w' h
    refine .inr (.inr ⟨_, _, rfl, ?_⟩)
    unfold validate at h
    repeat' split at h
    all_goals cases h <;> simp
  · split
    · exact .inr (.inl ⟨_, _, _, rfl⟩)
    · exact .inl ⟨_, _, _, rfl⟩

theorem verdictResult_cases (c : Config) (pkt : Bytes) (exp : BitVec 16) (isRead : Bool) :
    (∃ w, verdictResult exp (validate c pkt exp isRead) = okWarn w)
    ∨ ∃ k ch w, verdictResult exp (validate c pkt exp isRead) = errWarn k exp ch w
      ∧ ch ≠ .timeout := by
  rcases hv : validate c pkt exp isRead with w | ⟨k, ch, w⟩
  · exact .inl ⟨w, rfl⟩
  · refine .inr ⟨k, ch, w, rfl, ?_⟩
    unfold validate at hv
    repeat' split at hv
    all_goals cases hv <;> simp

end Sys2Proof.Machine
end

