-- ==== Sys2Proof/Laws/State.lean ====
section
/-! SUPPORT. What each named update of the state does to each field, one lemma per field per update. -/

namespace Sys2Proof.Machine

variable (s : State)

@[simp] theorem State.respond_cfg (r : ResultPorts) : (s.respond r).cfg = s.cfg := rfl
@[simp] theorem State.respond_reqid (r : ResultPorts) : (s.respond r).reqid = s.reqid := rfl
@[simp] theorem State.respond_busy (r : ResultPorts) : (s.respond r).busy = s.busy := rfl
@[simp] theorem State.respond_rsync (r : ResultPorts) : (s.respond r).rsync = s.rsync := rfl
@[simp] theorem State.respond_expect (r : ResultPorts) : (s.respond r).expect = s.expect := rfl
@[simp] theorem State.respond_lastReq (r : ResultPorts) : (s.respond r).lastReq = s.lastReq := rfl
@[simp] theorem State.respond_tmo (r : ResultPorts) : (s.respond r).tmo = s.tmo := rfl
@[simp] theorem State.respond_csAcc (r : ResultPorts) : (s.respond r).csAcc = s.csAcc := rfl
@[simp] theorem State.respond_csOdd (r : ResultPorts) : (s.respond r).csOdd = s.csOdd := rfl
@[simp] theorem State.respond_csCnt (r : ResultPorts) : (s.respond r).csCnt = s.csCnt := rfl
@[simp] theorem State.respond_pending (r : ResultPorts) : (s.respond r).pending = s.pending := rfl
@[simp] theorem State.respond_draws (r : ResultPorts) : (s.respond r).draws = s.draws := rfl
@[simp] theorem State.respond_out (r : ResultPorts) : (s.respond r).out = r := rfl

@[simp] theorem State.storeReq_cfg (p : Bytes) : (s.storeReq p).cfg = s.cfg := rfl
@[simp] theorem State.storeReq_reqid (p : Bytes) : (s.storeReq p).reqid = s.reqid := rfl
@[simp] theorem State.storeReq_busy (p : Bytes) : (s.storeReq p).busy = s.busy := rfl
@[simp] theorem State.storeReq_rsync (p : Bytes) : (s.storeReq p).rsync = s.rsync := rfl
@[simp] theorem State.storeReq_expect (p : Bytes) : (s.storeReq p).expect = s.expect := rfl
@[simp] theorem State.storeReq_lastReq (p : Bytes) : (s.storeReq p).lastReq = p := rfl
@[simp] theorem State.storeReq_tmo (p : Bytes) : (s.storeReq p).tmo = s.tmo := rfl
@[simp] theorem State.storeReq_csAcc (p : Bytes) : (s.storeReq p).csAcc = s.csAcc := rfl
@[simp] theorem State.storeReq_csOdd (p : Bytes) : (s.storeReq p).csOdd = s.csOdd := rfl
@[simp] theorem State.storeReq_csCnt (p : Bytes) : (s.storeReq p).csCnt = s.csCnt := rfl
@[simp] theorem State.storeReq_pending (p : Bytes) : (s.storeReq p).pending = s.pending := rfl
@[simp] theorem State.storeReq_draws (p : Bytes) : (s.storeReq p).draws = s.draws := rfl
@[simp] theorem State.storeReq_out (p : Bytes) : (s.storeReq p).out = s.out := rfl

@[simp] theorem State.bumpId_cfg : s.bumpId.cfg = s.cfg := rfl
@[simp] theorem State.bumpId_reqid : s.bumpId.reqid = nextId s := rfl
@[simp] theorem State.bumpId_busy : s.bumpId.busy = s.busy := rfl
@[simp] theorem State.bumpId_rsync : s.bumpId.rsync = s.rsync := rfl
@[simp] theorem State.bumpId_expect : s.bumpId.expect = s.expect := rfl
@[simp] theorem State.bumpId_lastReq : s.bumpId.lastReq = s.lastReq := rfl
@[simp] theorem State.bumpId_tmo : s.bumpId.tmo = s.tmo := rfl
@[simp] theorem State.bumpId_csAcc : s.bumpId.csAcc = s.csAcc := rfl
@[simp] theorem State.bumpId_csOdd : s.bumpId.csOdd = s.csOdd := rfl
@[simp] theorem State.bumpId_csCnt : s.bumpId.csCnt = s.csCnt := rfl
@[simp] theorem State.bumpId_pending : s.bumpId.pending = s.pending := rfl
@[simp] theorem State.bumpId_draws : s.bumpId.draws = s.draws := rfl
@[simp] theorem State.bumpId_out : s.bumpId.out = s.out := rfl

@[simp] theorem State.failEntry_cfg : s.failEntry.cfg = s.cfg := rfl
@[simp] theorem State.failEntry_reqid : s.failEntry.reqid = s.reqid := rfl
@[simp] theorem State.failEntry_busy : s.failEntry.busy = false := rfl
@[simp] theorem State.failEntry_rsync : s.failEntry.rsync = .awaitingFlush := rfl
@[simp] theorem State.failEntry_expect : s.failEntry.expect = s.expect := rfl
@[simp] theorem State.failEntry_lastReq : s.failEntry.lastReq = s.lastReq := rfl
@[simp] theorem State.failEntry_tmo : s.failEntry.tmo = s.tmo := rfl
@[simp] theorem State.failEntry_csAcc : s.failEntry.csAcc = s.csAcc := rfl
@[simp] theorem State.failEntry_csOdd : s.failEntry.csOdd = s.csOdd := rfl
@[simp] theorem State.failEntry_csCnt : s.failEntry.csCnt = s.csCnt := rfl
@[simp] theorem State.failEntry_pending : s.failEntry.pending = s.pending := rfl
@[simp] theorem State.failEntry_draws : s.failEntry.draws = s.draws := rfl
@[simp] theorem State.failEntry_out : s.failEntry.out = s.out := rfl

@[simp] theorem State.failReturn_cfg : s.failReturn.cfg = s.cfg := rfl
@[simp] theorem State.failReturn_reqid : s.failReturn.reqid = s.reqid := rfl
@[simp] theorem State.failReturn_busy : s.failReturn.busy = s.busy := rfl
@[simp] theorem State.failReturn_rsync : s.failReturn.rsync = .idle := rfl
@[simp] theorem State.failReturn_expect : s.failReturn.expect = s.expect := rfl
@[simp] theorem State.failReturn_lastReq : s.failReturn.lastReq = s.lastReq := rfl
@[simp] theorem State.failReturn_tmo : s.failReturn.tmo = s.tmo := rfl
@[simp] theorem State.failReturn_csAcc : s.failReturn.csAcc = s.csAcc := rfl
@[simp] theorem State.failReturn_csOdd : s.failReturn.csOdd = s.csOdd := rfl
@[simp] theorem State.failReturn_csCnt : s.failReturn.csCnt = s.csCnt := rfl
@[simp] theorem State.failReturn_pending : s.failReturn.pending = s.pending := rfl
@[simp] theorem State.failReturn_draws : s.failReturn.draws = s.draws := rfl
@[simp] theorem State.failReturn_out : s.failReturn.out = s.out := rfl

@[simp] theorem State.closeRequest_cfg : s.closeRequest.cfg = s.cfg := rfl
@[simp] theorem State.closeRequest_reqid : s.closeRequest.reqid = s.reqid := rfl
@[simp] theorem State.closeRequest_busy : s.closeRequest.busy = false := rfl
@[simp] theorem State.closeRequest_rsync : s.closeRequest.rsync = s.rsync := rfl
@[simp] theorem State.closeRequest_expect : s.closeRequest.expect = s.expect := rfl
@[simp] theorem State.closeRequest_lastReq : s.closeRequest.lastReq = s.lastReq := rfl
@[simp] theorem State.closeRequest_tmo : s.closeRequest.tmo = s.tmo := rfl
@[simp] theorem State.closeRequest_csAcc : s.closeRequest.csAcc = s.csAcc := rfl
@[simp] theorem State.closeRequest_csOdd : s.closeRequest.csOdd = s.csOdd := rfl
@[simp] theorem State.closeRequest_csCnt : s.closeRequest.csCnt = s.csCnt := rfl
@[simp] theorem State.closeRequest_pending : s.closeRequest.pending = s.pending := rfl
@[simp] theorem State.closeRequest_draws : s.closeRequest.draws = s.draws := rfl
@[simp] theorem State.closeRequest_out : s.closeRequest.out = s.out := rfl

@[simp] theorem State.openRequest_cfg (p : Bytes) (e : Expect) : (s.openRequest p e).cfg = s.cfg := rfl
@[simp] theorem State.openRequest_reqid (p : Bytes) (e : Expect) : (s.openRequest p e).reqid = s.reqid := rfl
@[simp] theorem State.openRequest_busy (p : Bytes) (e : Expect) : (s.openRequest p e).busy = true := rfl
@[simp] theorem State.openRequest_rsync (p : Bytes) (e : Expect) : (s.openRequest p e).rsync = .idle := rfl
@[simp] theorem State.openRequest_expect (p : Bytes) (e : Expect) : (s.openRequest p e).expect = e := rfl
@[simp] theorem State.openRequest_lastReq (p : Bytes) (e : Expect) : (s.openRequest p e).lastReq = p := rfl
@[simp] theorem State.openRequest_tmo (p : Bytes) (e : Expect) : (s.openRequest p e).tmo = s.tmo := rfl
@[simp] theorem State.openRequest_csAcc (p : Bytes) (e : Expect) : (s.openRequest p e).csAcc = s.csAcc := rfl
@[simp] theorem State.openRequest_csOdd (p : Bytes) (e : Expect) : (s.openRequest p e).csOdd = s.csOdd := rfl
@[simp] theorem State.openRequest_csCnt (p : Bytes) (e : Expect) : (s.openRequest p e).csCnt = s.csCnt := rfl
@[simp] theorem State.openRequest_pending (p : Bytes) (e : Expect) : (s.openRequest p e).pending = s.pending := rfl
@[simp] theorem State.openRequest_draws (p : Bytes) (e : Expect) : (s.openRequest p e).draws = s.draws := rfl
@[simp] theorem State.openRequest_out (p : Bytes) (e : Expect) : (s.openRequest p e).out = s.out := rfl

@[simp] theorem State.resetRegisters_cfg : s.resetRegisters.cfg = s.cfg := rfl
@[simp] theorem State.resetRegisters_reqid : s.resetRegisters.reqid = s.cfg.reqidReset := rfl
@[simp] theorem State.resetRegisters_busy : s.resetRegisters.busy = false := rfl
@[simp] theorem State.resetRegisters_rsync : s.resetRegisters.rsync = .idle := rfl
@[simp] theorem State.resetRegisters_expect : s.resetRegisters.expect = Expect.reset := rfl
@[simp] theorem State.resetRegisters_lastReq : s.resetRegisters.lastReq = [] := rfl
@[simp] theorem State.resetRegisters_tmo : s.resetRegisters.tmo = s.cfg.tmoReset := rfl
@[simp] theorem State.resetRegisters_csAcc : s.resetRegisters.csAcc = 0 := rfl
@[simp] theorem State.resetRegisters_csOdd : s.resetRegisters.csOdd = false := rfl
@[simp] theorem State.resetRegisters_csCnt : s.resetRegisters.csCnt = 0 := rfl
@[simp] theorem State.resetRegisters_pending : s.resetRegisters.pending = s.pending := rfl
@[simp] theorem State.resetRegisters_draws : s.resetRegisters.draws = s.draws := rfl
@[simp] theorem State.resetRegisters_out : s.resetRegisters.out = s.out := rfl

@[simp] theorem presentTo_nil (b : Bytes) : presentTo b [] = [] := rfl
@[simp] theorem presentTo_issue (b : Bytes) (p : Ports) (rest : List Event) :
    presentTo b (.issue p :: rest) = .issue { p with pkt := b } :: rest := rfl
@[simp] theorem presentTo_receive (b c : Bytes) (rest : List Event) :
    presentTo b (.receive c :: rest) = .receive c :: rest := rfl
@[simp] theorem presentTo_reset (b : Bytes) (rest : List Event) :
    presentTo b (.reset :: rest) = .reset :: rest := rfl

/-- An arrival that no operation follows changes nothing (R50). -/
theorem presentTo_of_not_issue (b : Bytes) (q : List Event) (h : ∀ p more, q ≠ .issue p :: more) :
    presentTo b q = q := by
  match q with
  | [] => rfl
  | .issue p :: more => exact absurd rfl (h p more)
  | .receive _ :: _ => rfl
  | .reset :: _ => rfl

@[simp] theorem State.present_cfg (b : Bytes) : (s.present b).cfg = s.cfg := rfl
@[simp] theorem State.present_reqid (b : Bytes) : (s.present b).reqid = s.reqid := rfl
@[simp] theorem State.present_busy (b : Bytes) : (s.present b).busy = s.busy := rfl
@[simp] theorem State.present_rsync (b : Bytes) : (s.present b).rsync = s.rsync := rfl
@[simp] theorem State.present_expect (b : Bytes) : (s.present b).expect = s.expect := rfl
@[simp] theorem State.present_lastReq (b : Bytes) : (s.present b).lastReq = s.lastReq := rfl
@[simp] theorem State.present_tmo (b : Bytes) : (s.present b).tmo = s.tmo := rfl
@[simp] theorem State.present_csAcc (b : Bytes) : (s.present b).csAcc = s.csAcc := rfl
@[simp] theorem State.present_csOdd (b : Bytes) : (s.present b).csOdd = s.csOdd := rfl
@[simp] theorem State.present_csCnt (b : Bytes) : (s.present b).csCnt = s.csCnt := rfl
@[simp] theorem State.present_pending (b : Bytes) :
    (s.present b).pending = presentTo b s.pending := rfl
@[simp] theorem State.present_draws (b : Bytes) : (s.present b).draws = s.draws := rfl
@[simp] theorem State.present_out (b : Bytes) : (s.present b).out = s.out := rfl

@[simp] theorem State.clearCs_cfg : s.clearCs.cfg = s.cfg := rfl
@[simp] theorem State.clearCs_reqid : s.clearCs.reqid = s.reqid := rfl
@[simp] theorem State.clearCs_busy : s.clearCs.busy = s.busy := rfl
@[simp] theorem State.clearCs_rsync : s.clearCs.rsync = s.rsync := rfl
@[simp] theorem State.clearCs_expect : s.clearCs.expect = s.expect := rfl
@[simp] theorem State.clearCs_lastReq : s.clearCs.lastReq = s.lastReq := rfl
@[simp] theorem State.clearCs_tmo : s.clearCs.tmo = s.tmo := rfl
@[simp] theorem State.clearCs_csAcc : s.clearCs.csAcc = 0 := rfl
@[simp] theorem State.clearCs_csOdd : s.clearCs.csOdd = false := rfl
@[simp] theorem State.clearCs_csCnt : s.clearCs.csCnt = 0 := rfl
@[simp] theorem State.clearCs_pending : s.clearCs.pending = s.pending := rfl
@[simp] theorem State.clearCs_draws : s.clearCs.draws = s.draws := rfl
@[simp] theorem State.clearCs_out : s.clearCs.out = s.out := rfl

@[simp] theorem State.putCs_cfg (x : Byte) : (s.putCs x).cfg = s.cfg := rfl
@[simp] theorem State.putCs_reqid (x : Byte) : (s.putCs x).reqid = s.reqid := rfl
@[simp] theorem State.putCs_busy (x : Byte) : (s.putCs x).busy = s.busy := rfl
@[simp] theorem State.putCs_rsync (x : Byte) : (s.putCs x).rsync = s.rsync := rfl
@[simp] theorem State.putCs_expect (x : Byte) : (s.putCs x).expect = s.expect := rfl
@[simp] theorem State.putCs_lastReq (x : Byte) : (s.putCs x).lastReq = s.lastReq := rfl
@[simp] theorem State.putCs_tmo (x : Byte) : (s.putCs x).tmo = s.tmo := rfl
@[simp] theorem State.putCs_csAcc (x : Byte) : (s.putCs x).csAcc = s.csAcc + putAddend s.csOdd x := rfl
@[simp] theorem State.putCs_csOdd (x : Byte) : (s.putCs x).csOdd = oddNext s.csOdd := rfl
@[simp] theorem State.putCs_csCnt (x : Byte) : (s.putCs x).csCnt = s.csCnt + 1 := rfl
@[simp] theorem State.putCs_pending (x : Byte) : (s.putCs x).pending = s.pending := rfl
@[simp] theorem State.putCs_draws (x : Byte) : (s.putCs x).draws = s.draws := rfl
@[simp] theorem State.putCs_out (x : Byte) : (s.putCs x).out = s.out := rfl

@[simp] theorem State.take_cfg (rest : List Event) : (s.take rest).cfg = s.cfg := rfl
@[simp] theorem State.take_reqid (rest : List Event) : (s.take rest).reqid = s.reqid := rfl
@[simp] theorem State.take_busy (rest : List Event) : (s.take rest).busy = s.busy := rfl
@[simp] theorem State.take_rsync (rest : List Event) : (s.take rest).rsync = s.rsync := rfl
@[simp] theorem State.take_expect (rest : List Event) : (s.take rest).expect = s.expect := rfl
@[simp] theorem State.take_lastReq (rest : List Event) : (s.take rest).lastReq = s.lastReq := rfl
@[simp] theorem State.take_tmo (rest : List Event) : (s.take rest).tmo = s.tmo := rfl
@[simp] theorem State.take_csAcc (rest : List Event) : (s.take rest).csAcc = s.csAcc := rfl
@[simp] theorem State.take_csOdd (rest : List Event) : (s.take rest).csOdd = s.csOdd := rfl
@[simp] theorem State.take_csCnt (rest : List Event) : (s.take rest).csCnt = s.csCnt := rfl
@[simp] theorem State.take_pending (rest : List Event) : (s.take rest).pending = rest := rfl
@[simp] theorem State.take_draws (rest : List Event) : (s.take rest).draws = s.draws + 1 := rfl
@[simp] theorem State.take_out (rest : List Event) : (s.take rest).out = s.out := rfl

@[simp] theorem State.pushEvent_cfg (e : Event) : (s.pushEvent e).cfg = s.cfg := rfl
@[simp] theorem State.pushEvent_reqid (e : Event) : (s.pushEvent e).reqid = s.reqid := rfl
@[simp] theorem State.pushEvent_busy (e : Event) : (s.pushEvent e).busy = s.busy := rfl
@[simp] theorem State.pushEvent_rsync (e : Event) : (s.pushEvent e).rsync = s.rsync := rfl
@[simp] theorem State.pushEvent_expect (e : Event) : (s.pushEvent e).expect = s.expect := rfl
@[simp] theorem State.pushEvent_lastReq (e : Event) : (s.pushEvent e).lastReq = s.lastReq := rfl
@[simp] theorem State.pushEvent_tmo (e : Event) : (s.pushEvent e).tmo = s.tmo := rfl
@[simp] theorem State.pushEvent_csAcc (e : Event) : (s.pushEvent e).csAcc = s.csAcc := rfl
@[simp] theorem State.pushEvent_csOdd (e : Event) : (s.pushEvent e).csOdd = s.csOdd := rfl
@[simp] theorem State.pushEvent_csCnt (e : Event) : (s.pushEvent e).csCnt = s.csCnt := rfl
@[simp] theorem State.pushEvent_pending (e : Event) : (s.pushEvent e).pending = e :: s.pending := rfl
@[simp] theorem State.pushEvent_draws (e : Event) : (s.pushEvent e).draws = s.draws := rfl
@[simp] theorem State.pushEvent_out (e : Event) : (s.pushEvent e).out = s.out := rfl

/-- A timeout closes the request and leaves all but `BUSY` and `RSYNC` (R216). -/
theorem State.timeoutEntry_eq : s.timeoutEntry =
    { s with busy := false, rsync := if s.tmo = 0 then s.rsync else .awaitingFlush } := by
  unfold State.timeoutEntry; split <;> rfl

@[simp] theorem State.withFetchWord_pending (nbits w : Nat) :
    (s.withFetchWord nbits w).pending = tableEvent nbits w :: s.pending := rfl

end Sys2Proof.Machine
end

