-- ==== Sys2Proof/Laws/Ops.lean ====
section
/-! SUPPORT. What each shared operation can answer, said once. -/

namespace Sys2Proof.Machine

@[simp] theorem done_next (s t : State) (r : ResultPorts) :
    done s r = .next t ↔ t = s.respond r := by
  unfold done; constructor
  · intro h; cases h; rfl
  · intro h; rw [h]

@[simp] theorem refuse_next (s t : State) (r : Reason) :
    refuse s r = .next t ↔ t = s.respond (refusedResult r) := by
  unfold refuse; simp

/-- BLD.*: refused, failed, or a packet stored and returned (R140, R141, R144). -/
theorem build_cases (s t : State) (rid : BitVec 16) (packet : Option Bytes)
    (h : build s rid packet = .next t) :
    (s.busy = true ∧ t = s.respond (refusedResult .busy))
    ∨ (s.busy = false ∧ packet = none
        ∧ t = s.respond (errResult codeInvalidParameter rid .longPayload))
    ∨ ∃ p, s.busy = false ∧ packet = some p ∧ t = (s.storeReq p).respond (okTx p) := by
  unfold build at h
  cases hb : s.busy with
  | true => rw [if_pos hb] at h; exact .inl ⟨rfl, by simpa using h⟩
  | false =>
    rw [if_neg (by simp [hb])] at h
    cases packet with
    | none => exact .inr (.inl ⟨rfl, rfl, by simpa using h⟩)
    | some p => exact .inr (.inr ⟨p, rfl, rfl, by simpa using h⟩)

/-- SQ.RD.* and SQ.WR.*: refused, failed with the id consumed, or issued (R200, R201, R217). -/
theorem issue_cases (s t : State) (packet : BitVec 16 → Option Bytes) (e : Expect)
    (h : issue s packet e = .next t) :
    (s.busy = true ∧ t = s.respond (refusedResult .busy))
    ∨ (s.busy = false ∧ packet (nextId s) = none ∧ t = s.bumpId.respond (errIssue (nextId s)))
    ∨ ∃ p, s.busy = false ∧ packet (nextId s) = some p
        ∧ t = (s.bumpId.openRequest p e).respond (okIssue p (nextId s) (drainFlag s.rsync)) := by
  unfold issue at h
  cases hb : s.busy with
  | true => rw [if_pos hb] at h; exact .inl ⟨rfl, by simpa using h⟩
  | false =>
    rw [if_neg (by simp [hb])] at h
    cases hp : packet (nextId s) with
    | none => rw [hp] at h; exact .inr (.inl ⟨rfl, rfl, by simpa using h⟩)
    | some p => rw [hp] at h; exact .inr (.inr ⟨p, rfl, rfl, by simpa using h⟩)

/-- SQ.TMO: refused, or the request ends with MessageTimeout (R216). -/
theorem timeout_cases (s t : State) (h : timeout s = .next t) :
    (s.busy = false ∧ t = s.respond (refusedResult .noRequest))
    ∨ (s.busy = true
        ∧ t = s.timeoutEntry.respond (errResult s.cfg.codes.msgTimeout s.reqid .timeout)) := by
  unfold timeout at h
  cases hb : s.busy with
  | true => rw [if_pos hb] at h; exact .inr ⟨rfl, by simpa using h⟩
  | false => rw [if_neg (by simp [hb])] at h; exact .inl ⟨rfl, by simpa using h⟩

/-- The end of a request: a failure entry after Err or Trunc, else only `BUSY` falls (R215). -/
theorem complete_cases (s t : State) (r : ResultPorts) (h : complete s r = .next t) :
    (failedResult r = true ∧ t = s.failEntry.respond r)
    ∨ (failedResult r = false ∧ t = s.closeRequest.respond r) := by
  unfold complete at h
  cases hf : failedResult r with
  | true => rw [if_pos hf] at h; exact .inl ⟨rfl, by simpa using h⟩
  | false => rw [if_neg (by simp [hf])] at h; exact .inr ⟨rfl, by simpa using h⟩

/-- SQ.ACK: refused, a timeout on the empty packet, or the request ends with what the expected kind
finds (R215). -/
theorem acknowledge_cases (s t : State) (pkt : Bytes) (cap : BitVec 16)
    (h : acknowledge s pkt cap = .next t) :
    (s.busy = false ∧ t = s.respond (refusedResult .noRequest))
    ∨ (s.busy = true ∧ rxMax s.cfg < pkt.length ∧ t = s.respond (refusedResult .rxRange))
    ∨ (s.busy = true ∧ pkt = [] ∧ timeout s = .next t)
    ∨ ∃ r, s.busy = true ∧ pkt ≠ [] ∧ pkt.length ≤ rxMax s.cfg ∧ judge s pkt cap = some r
        ∧ complete s r = .next t := by
  unfold acknowledge at h
  cases hb : s.busy with
  | false => rw [if_pos hb] at h; exact .inl ⟨rfl, by simpa using h⟩
  | true =>
    rw [if_neg (by simp [hb])] at h
    split at h
    · exact .inr (.inl ⟨rfl, ‹_›, by simpa using h⟩)
    · split at h
      · exact .inr (.inr (.inl ⟨rfl, ‹_›, h⟩))
      · cases hj : judge s pkt cap with
        | none => rw [hj] at h; cases h
        | some r => rw [hj] at h; exact .inr (.inr (.inr ⟨r, rfl, ‹_›, by omega, rfl, h⟩))

/-- VAL.* and EXT.*: refused, or the result with no register written (R160, R167). -/
theorem inspect_cases (s t : State) (pkt : Bytes) (r : ResultPorts)
    (h : inspect s pkt r = .next t) :
    (rxMax s.cfg < pkt.length ∧ t = s.respond (refusedResult .rxRange))
    ∨ (pkt.length ≤ rxMax s.cfg ∧ t = s.respond r) := by
  unfold inspect at h
  split at h
  · exact .inl ⟨‹_›, by simpa using h⟩
  · exact .inr ⟨by omega, by simpa using h⟩

/-- What SQ.ACK finds in a packet is a verdict on a write acknowledgement, or an extraction (R215). -/
theorem judge_cases (s : State) (pkt : Bytes) (cap : BitVec 16) (r : ResultPorts)
    (h : judge s pkt cap = some r) :
    (s.expect.kind = .ack ∧ r = verdictResult s.reqid (validate s.cfg pkt s.reqid false))
    ∨ (s.expect.kind = .bytes ∧ r = extractBytes s.cfg pkt s.reqid cap)
    ∨ ∃ w, s.expect.kind ≠ .none ∧ s.expect.kind ≠ .ack ∧ s.expect.kind ≠ .bytes
        ∧ r = extractScalar s.cfg pkt s.reqid w := by
  unfold judge at h
  cases hk : s.expect.kind <;> rw [hk] at h <;> simp at h <;> subst h <;> simp

/-- The number that R9 gives `PKT_MAX` holds for every `MAX_PAYLOAD` of 4 and more. -/
theorem pktMax_of_le (c : Config) (h : 4 ≤ c.maxPayload.val) : pktMax c = 24 + c.maxPayload.val := by
  simp only [pktMax, hdrBytes, rdreqBytes]; omega

/-- Below 4 the longest packet is the ReadMem request (R93, log 17). -/
theorem pktMax_of_lt (c : Config) (h : c.maxPayload.val < 4) : pktMax c = 28 := by
  simp only [pktMax, hdrBytes, rdreqBytes]; omega

/-- An acknowledgement with a payload within `MAX_PAYLOAD` can be presented (R9, R160). -/
theorem payload_le_rxMax (c : Config) (n : Nat) (h : n ≤ c.maxPayload.val) : 24 + n ≤ rxMax c := by
  simp only [rxMax, pktMax, hdrBytes, rdreqBytes]; omega

/-- A build or an issue keeps TXBUF within its size: the packet stored is at most `PKT_MAX` bytes
(R28, R59). -/
theorem stored_packet_fits (c : Config) (draw : Nat) (rid : BitVec 16) (addr : BitVec 64)
    (cnt : BitVec 16) (din payload p : Bytes)
    (h : buildRead rid addr cnt = some p ∨ buildWrite c rid addr payload = some p
      ∨ buildWriteDin c draw rid addr cnt din = some p) :
    24 ≤ p.length ∧ p.length ≤ pktMax c := by
  rcases h with h | h | h
  · obtain ⟨q, hq, hl⟩ := buildRead_eq rid addr cnt
    rw [hq] at h; cases h
    simp only [pktMax, rdreqBytes]; omega
  · have := buildWrite_length _ _ _ _ _ h
    simp only [pktMax, hdrBytes, rdreqBytes]; omega
  · rw [buildWriteDin_eq] at h
    have := buildWrite_length _ _ _ _ _ h
    simp only [pktMax, hdrBytes, rdreqBytes]; omega

/-- `PKT_MAX` is the longest packet the engine builds, and no larger (R9): where the request of a full
payload has a checksum (log 8), a build returns a packet of exactly that length. -/
theorem pktMax_attained (c : Config) (rid : BitVec 16) (addr : BitVec 64) (cnt : BitVec 16)
    (h : c.maxPayload.val ≤ 65516) :
    ∃ p, p.length = pktMax c
      ∧ (buildRead rid addr cnt = some p ∨ ∃ payload, buildWrite c rid addr payload = some p) := by
  by_cases h4 : c.maxPayload.val < 4
  · obtain ⟨p, hp, hl⟩ := buildRead_eq rid addr cnt
    exact ⟨p, by rw [hl, pktMax_of_lt c h4], .inl hp⟩
  · have hw := buildWrite_fits c rid addr (List.replicate c.maxPayload.val 0) (by simp)
    rw [frame_eq _ _ _ _ (by simp; omega)] at hw
    have hl := buildWrite_length _ _ _ _ _ hw
    exact ⟨_, by rw [hl.2, pktMax_of_le c (by omega)]; simp, .inr ⟨_, hw⟩⟩

/-- The number 16 + 8 + `MAX_PAYLOAD` that R9 gives `PKT_MAX` bounds no ReadMem request where
`MAX_PAYLOAD` is below 4: R8, R28 and R93 cannot all hold with it (log 17). -/
theorem read_request_exceeds_sum (c : Config) (rid : BitVec 16) (addr : BitVec 64) (cnt : BitVec 16)
    (p : Bytes) (h : c.maxPayload.val < 4) (hp : buildRead rid addr cnt = some p) :
    16 + 8 + c.maxPayload.val < p.length := by
  obtain ⟨q, hq, hl⟩ := buildRead_eq rid addr cnt
  rw [hq] at hp; cases hp
  omega

end Sys2Proof.Machine
end

