-- ==== Sys2Proof/Laws/PerInstr.lean ====
section
/-! SUPPORT. For every instruction: what it is encoded as lies in its own row of
spec/opcode_table.json (R104). -/

namespace Sys2Proof.Laws

open Machine

/-- The mask and the match of an instruction's row, as spec/opcode_table.json prints them: eight
bits for an operation, 128 bits over the header bytes for a packet. -/
def Pattern.row : Instr → Nat × Nat
  | .srst => (0xFF, 0x01)
  | .wrtmo _ => (0xFF, 0x02)
  | .rdst => (0xFF, 0x03)
  | .csClr => (0xFF, 0x10)
  | .csPut _ => (0xFF, 0x11)
  | .csGet => (0xFF, 0x12)
  | .bldRd _ _ _ => (0xFF, 0x20)
  | .bldWrB _ _ _ _ => (0xFF, 0x28)
  | .bldWrU16 _ _ _ => (0xFF, 0x29)
  | .bldWrU32 _ _ _ => (0xFF, 0x2A)
  | .bldWrU64 _ _ _ => (0xFF, 0x2B)
  | .bldWrF32 _ _ _ => (0xFF, 0x2C)
  | .bldWrF64 _ _ _ => (0xFF, 0x2D)
  | .valRd _ _ => (0xFF, 0x30)
  | .valWr _ _ => (0xFF, 0x31)
  | .extB _ _ _ => (0xFF, 0x40)
  | .extU16 _ _ => (0xFF, 0x41)
  | .extU32 _ _ => (0xFF, 0x42)
  | .extU64 _ _ => (0xFF, 0x43)
  | .extF32 _ _ => (0xFF, 0x44)
  | .extF64 _ _ => (0xFF, 0x45)
  | .sqRdB _ _ => (0xFF, 0x50)
  | .sqRdU16 _ => (0xFF, 0x51)
  | .sqRdU32 _ => (0xFF, 0x52)
  | .sqRdU64 _ => (0xFF, 0x53)
  | .sqRdF32 _ => (0xFF, 0x54)
  | .sqRdF64 _ => (0xFF, 0x55)
  | .sqWrB _ _ _ => (0xFF, 0x58)
  | .sqWrU16 _ _ => (0xFF, 0x59)
  | .sqWrU32 _ _ => (0xFF, 0x5A)
  | .sqWrU64 _ _ => (0xFF, 0x5B)
  | .sqWrF32 _ _ => (0xFF, 0x5C)
  | .sqWrF64 _ _ => (0xFF, 0x5D)
  | .sqAck _ _ => (0xFF, 0x5E)
  | .sqTmo => (0xFF, 0x5F)
  | .pktReadmemReq _ _ _ _ =>
    (0xFFFF00000000FFFFFFFFFFFFFFFF0000, 0x010000000000000040000800000C0000)
  | .pktWritememReq _ _ _ _ _ =>
    (0xFFFF00000000FFFFFFFFFFFF00000000, 0x01000000000000004000080200000000)
  | .pktReadmemAck _ _ _ _ _ _ _ =>
    (0xFFFF0000000000000000FFFF00000000, 0x01000000000000000000080100000000)
  | .pktWritememAck _ _ _ _ _ _ _ =>
    (0xFFFF0000000000000000FFFF00000000, 0x01000000000000000000080300000000)
  | .pktPendingAck _ _ _ _ _ _ _ =>
    (0xFFFF0000000000000000FFFF00000000, 0x01000000000000000000080500000000)

/-- The bits an event shows to the table's patterns: the opcode, or the first 16 bytes, byte 0 most
significant. -/
def Pattern.bits : Event → Nat
  | .issue p => p.op.toNat
  | .receive b => beNat (b.take 16)
  | .reset => 0

/-- The instruction's encoding matches its row of the table. -/
def Pattern.Statement (i : Instr) : Prop :=
  Pattern.bits (encode i) &&& (Pattern.row i).1 = (Pattern.row i).2

/-- The header of a packet as one number, a 16-bit field at a time. -/
def Pattern.header (f0 f1 f2 f3 f4 f5 f6 f7 : Nat) : Nat :=
  ((((((f0 * 65536 + f1) * 65536 + f2) * 65536 + f3) * 65536 + f4) * 65536 + f5) * 65536 + f6)
    * 65536 + f7

/-- Masking a number, the low 16 bits apart. -/
theorem Pattern.and_field (x y m n : Nat) (hy : y < 65536) (hn : n < 65536) :
    (x * 65536 + y) &&& (m * 65536 + n) = (x &&& m) * 65536 + (y &&& n) := by
  have hyn : y &&& n < 2 ^ 16 := lt_of_le_of_lt Nat.and_le_left hy
  apply Nat.eq_of_testBit_eq
  intro k
  rw [Nat.testBit_and, Nat.mul_comm x, Nat.mul_comm m, Nat.mul_comm (x &&& m),
    show (65536 : Nat) = 2 ^ 16 by rfl, Nat.testBit_two_pow_mul_add _ (by simpa using hy),
    Nat.testBit_two_pow_mul_add _ (by simpa using hn), Nat.testBit_two_pow_mul_add _ hyn]
  split <;> simp

/-- Masking a header masks each field. -/
theorem Pattern.and_header (a b c d e f g h m0 m1 m2 m3 m4 m5 m6 m7 : Nat)
    (hb : b < 65536) (hc : c < 65536) (hd : d < 65536) (he : e < 65536) (hf : f < 65536)
    (hg : g < 65536) (hh : h < 65536) (h1 : m1 < 65536) (h2 : m2 < 65536) (h3 : m3 < 65536)
    (h4 : m4 < 65536) (h5 : m5 < 65536) (h6 : m6 < 65536) (h7 : m7 < 65536) :
    Pattern.header a b c d e f g h &&& Pattern.header m0 m1 m2 m3 m4 m5 m6 m7
      = Pattern.header (a &&& m0) (b &&& m1) (c &&& m2) (d &&& m3) (e &&& m4) (f &&& m5) (g &&& m6)
          (h &&& m7) := by
  unfold Pattern.header
  simp only [Pattern.and_field, hb, hc, hd, he, hf, hg, hh, h1, h2, h3, h4, h5, h6, h7]

/-- What a number of two fields spells: the second field takes the low bytes. -/
theorem Pattern.beNat_append (x y : Bytes) :
    beNat (x ++ y) = beNat x * 256 ^ y.length + beNat y := by
  induction x with
  | nil => simp
  | cons b r ih =>
    rw [List.cons_append, beNat_cons, beNat_cons, ih, List.length_append, pow_add]
    ring

/-- The header of a packet spells its fields. -/
theorem Pattern.bits_packet (pre ccd scd chan w8 cmd len rid : BitVec 16) (rest : Bytes) :
    Pattern.bits (.receive (packetBytes pre ccd scd chan w8 cmd len rid rest))
      = Pattern.header pre.toNat ccd.toNat scd.toNat chan.toNat w8.toNat cmd.toNat len.toNat
          rid.toNat := by
  have field : ∀ v : BitVec 16, beNat (enc16 v) = v.toNat := fun v =>
    beNat_encBe 2 v.toNat v.isLt
  simp only [Pattern.bits, packetBytes, Pattern.header]
  rw [List.take_left' (by simp)]
  simp only [Pattern.beNat_append, field, enc16_length, show 256 ^ 2 = 65536 by norm_num]

/-- A packet's header under a mask of whole fields. -/
theorem Pattern.packet (pre ccd scd chan w8 cmd len rid : BitVec 16) (rest : Bytes)
    (m0 m1 m2 m3 m4 m5 m6 m7 : Nat) (h1 : m1 < 65536) (h2 : m2 < 65536) (h3 : m3 < 65536)
    (h4 : m4 < 65536) (h5 : m5 < 65536) (h6 : m6 < 65536) (h7 : m7 < 65536) :
    Pattern.bits (.receive (packetBytes pre ccd scd chan w8 cmd len rid rest))
        &&& Pattern.header m0 m1 m2 m3 m4 m5 m6 m7
      = Pattern.header (pre.toNat &&& m0) (ccd.toNat &&& m1) (scd.toNat &&& m2) (chan.toNat &&& m3)
          (w8.toNat &&& m4) (cmd.toNat &&& m5) (len.toNat &&& m6) (rid.toNat &&& m7) := by
  rw [Pattern.bits_packet]
  exact Pattern.and_header _ _ _ _ _ _ _ _ _ _ _ _ _ _ _ _ ccd.isLt scd.isLt chan.isLt w8.isLt
    cmd.isLt len.isLt rid.isLt h1 h2 h3 h4 h5 h6 h7

theorem Pattern.srst : Pattern.Statement .srst := by
  simp [Pattern.Statement, Pattern.bits, Pattern.row, encode, Ports.ofOp]

theorem Pattern.wrtmo (tmo : BitVec 32) : Pattern.Statement (.wrtmo tmo) := by
  simp [Pattern.Statement, Pattern.bits, Pattern.row, encode, Ports.ofOp]

theorem Pattern.rdst : Pattern.Statement .rdst := by
  simp [Pattern.Statement, Pattern.bits, Pattern.row, encode, Ports.ofOp]

theorem Pattern.csClr : Pattern.Statement .csClr := by
  simp [Pattern.Statement, Pattern.bits, Pattern.row, encode, Ports.ofOp]

theorem Pattern.csPut (x : Byte) : Pattern.Statement (.csPut x) := by
  simp [Pattern.Statement, Pattern.bits, Pattern.row, encode, Ports.ofOp]

theorem Pattern.csGet : Pattern.Statement .csGet := by
  simp [Pattern.Statement, Pattern.bits, Pattern.row, encode, Ports.ofOp]

theorem Pattern.bldRd (rid : BitVec 16) (addr : BitVec 64) (cnt : BitVec 16) :
    Pattern.Statement (.bldRd rid addr cnt) := by
  simp [Pattern.Statement, Pattern.bits, Pattern.row, encode, Ports.ofOp]

theorem Pattern.bldWrB (rid : BitVec 16) (addr : BitVec 64) (cnt : BitVec 16) (din : Bytes) :
    Pattern.Statement (.bldWrB rid addr cnt din) := by
  simp [Pattern.Statement, Pattern.bits, Pattern.row, encode, Ports.ofOp]

theorem Pattern.bldWrU16 (rid : BitVec 16) (addr : BitVec 64) (data : BitVec 16) :
    Pattern.Statement (.bldWrU16 rid addr data) := by
  simp [Pattern.Statement, Pattern.bits, Pattern.row, encode, Ports.ofOp]

theorem Pattern.bldWrU32 (rid : BitVec 16) (addr : BitVec 64) (data : BitVec 32) :
    Pattern.Statement (.bldWrU32 rid addr data) := by
  simp [Pattern.Statement, Pattern.bits, Pattern.row, encode, Ports.ofOp]

theorem Pattern.bldWrU64 (rid : BitVec 16) (addr : BitVec 64) (data : BitVec 64) :
    Pattern.Statement (.bldWrU64 rid addr data) := by
  simp [Pattern.Statement, Pattern.bits, Pattern.row, encode, Ports.ofOp]

theorem Pattern.bldWrF32 (rid : BitVec 16) (addr : BitVec 64) (data : BitVec 32) :
    Pattern.Statement (.bldWrF32 rid addr data) := by
  simp [Pattern.Statement, Pattern.bits, Pattern.row, encode, Ports.ofOp]

theorem Pattern.bldWrF64 (rid : BitVec 16) (addr : BitVec 64) (data : BitVec 64) :
    Pattern.Statement (.bldWrF64 rid addr data) := by
  simp [Pattern.Statement, Pattern.bits, Pattern.row, encode, Ports.ofOp]

theorem Pattern.valRd (pkt : Bytes) (rid : BitVec 16) : Pattern.Statement (.valRd pkt rid) := by
  simp [Pattern.Statement, Pattern.bits, Pattern.row, encode, Ports.ofOp]

theorem Pattern.valWr (pkt : Bytes) (rid : BitVec 16) : Pattern.Statement (.valWr pkt rid) := by
  simp [Pattern.Statement, Pattern.bits, Pattern.row, encode, Ports.ofOp]

theorem Pattern.extB (pkt : Bytes) (rid : BitVec 16) (cap : BitVec 16) :
    Pattern.Statement (.extB pkt rid cap) := by
  simp [Pattern.Statement, Pattern.bits, Pattern.row, encode, Ports.ofOp]

theorem Pattern.extU16 (pkt : Bytes) (rid : BitVec 16) : Pattern.Statement (.extU16 pkt rid) := by
  simp [Pattern.Statement, Pattern.bits, Pattern.row, encode, Ports.ofOp]

theorem Pattern.extU32 (pkt : Bytes) (rid : BitVec 16) : Pattern.Statement (.extU32 pkt rid) := by
  simp [Pattern.Statement, Pattern.bits, Pattern.row, encode, Ports.ofOp]

theorem Pattern.extU64 (pkt : Bytes) (rid : BitVec 16) : Pattern.Statement (.extU64 pkt rid) := by
  simp [Pattern.Statement, Pattern.bits, Pattern.row, encode, Ports.ofOp]

theorem Pattern.extF32 (pkt : Bytes) (rid : BitVec 16) : Pattern.Statement (.extF32 pkt rid) := by
  simp [Pattern.Statement, Pattern.bits, Pattern.row, encode, Ports.ofOp]

theorem Pattern.extF64 (pkt : Bytes) (rid : BitVec 16) : Pattern.Statement (.extF64 pkt rid) := by
  simp [Pattern.Statement, Pattern.bits, Pattern.row, encode, Ports.ofOp]

theorem Pattern.sqRdB (addr : BitVec 64) (cnt : BitVec 16) :
    Pattern.Statement (.sqRdB addr cnt) := by
  simp [Pattern.Statement, Pattern.bits, Pattern.row, encode, Ports.ofOp]

theorem Pattern.sqRdU16 (addr : BitVec 64) : Pattern.Statement (.sqRdU16 addr) := by
  simp [Pattern.Statement, Pattern.bits, Pattern.row, encode, Ports.ofOp]

theorem Pattern.sqRdU32 (addr : BitVec 64) : Pattern.Statement (.sqRdU32 addr) := by
  simp [Pattern.Statement, Pattern.bits, Pattern.row, encode, Ports.ofOp]

theorem Pattern.sqRdU64 (addr : BitVec 64) : Pattern.Statement (.sqRdU64 addr) := by
  simp [Pattern.Statement, Pattern.bits, Pattern.row, encode, Ports.ofOp]

theorem Pattern.sqRdF32 (addr : BitVec 64) : Pattern.Statement (.sqRdF32 addr) := by
  simp [Pattern.Statement, Pattern.bits, Pattern.row, encode, Ports.ofOp]

theorem Pattern.sqRdF64 (addr : BitVec 64) : Pattern.Statement (.sqRdF64 addr) := by
  simp [Pattern.Statement, Pattern.bits, Pattern.row, encode, Ports.ofOp]

theorem Pattern.sqWrB (addr : BitVec 64) (cnt : BitVec 16) (din : Bytes) :
    Pattern.Statement (.sqWrB addr cnt din) := by
  simp [Pattern.Statement, Pattern.bits, Pattern.row, encode, Ports.ofOp]

theorem Pattern.sqWrU16 (addr : BitVec 64) (data : BitVec 16) :
    Pattern.Statement (.sqWrU16 addr data) := by
  simp [Pattern.Statement, Pattern.bits, Pattern.row, encode, Ports.ofOp]

theorem Pattern.sqWrU32 (addr : BitVec 64) (data : BitVec 32) :
    Pattern.Statement (.sqWrU32 addr data) := by
  simp [Pattern.Statement, Pattern.bits, Pattern.row, encode, Ports.ofOp]

theorem Pattern.sqWrU64 (addr : BitVec 64) (data : BitVec 64) :
    Pattern.Statement (.sqWrU64 addr data) := by
  simp [Pattern.Statement, Pattern.bits, Pattern.row, encode, Ports.ofOp]

theorem Pattern.sqWrF32 (addr : BitVec 64) (data : BitVec 32) :
    Pattern.Statement (.sqWrF32 addr data) := by
  simp [Pattern.Statement, Pattern.bits, Pattern.row, encode, Ports.ofOp]

theorem Pattern.sqWrF64 (addr : BitVec 64) (data : BitVec 64) :
    Pattern.Statement (.sqWrF64 addr data) := by
  simp [Pattern.Statement, Pattern.bits, Pattern.row, encode, Ports.ofOp]

theorem Pattern.sqAck (pkt : Bytes) (cap : BitVec 16) : Pattern.Statement (.sqAck pkt cap) := by
  simp [Pattern.Statement, Pattern.bits, Pattern.row, encode, Ports.ofOp]

theorem Pattern.sqTmo : Pattern.Statement .sqTmo := by
  simp [Pattern.Statement, Pattern.bits, Pattern.row, encode, Ports.ofOp]

theorem Pattern.pktReadmemReq (ccd scd rid : BitVec 16) (rest : Bytes) :
    Pattern.Statement (.pktReadmemReq ccd scd rid rest) := by
  refine (Pattern.packet _ _ _ _ _ _ _ _ _ 0xFFFF 0 0 0xFFFF 0xFFFF 0xFFFF 0xFFFF 0 (by decide)
    (by decide) (by decide) (by decide) (by decide) (by decide) (by decide)).trans ?_
  simp only [Nat.and_zero]
  rfl

theorem Pattern.pktWritememReq (ccd scd len rid : BitVec 16) (rest : Bytes) :
    Pattern.Statement (.pktWritememReq ccd scd len rid rest) := by
  refine (Pattern.packet _ _ _ _ _ _ _ _ _ 0xFFFF 0 0 0xFFFF 0xFFFF 0xFFFF 0 0 (by decide)
    (by decide) (by decide) (by decide) (by decide) (by decide) (by decide)).trans ?_
  simp only [Nat.and_zero]
  rfl

theorem Pattern.pktReadmemAck (ccd scd chan status len rid : BitVec 16) (rest : Bytes) :
    Pattern.Statement (.pktReadmemAck ccd scd chan status len rid rest) := by
  refine (Pattern.packet _ _ _ _ _ _ _ _ _ 0xFFFF 0 0 0 0 0xFFFF 0 0 (by decide)
    (by decide) (by decide) (by decide) (by decide) (by decide) (by decide)).trans ?_
  simp only [Nat.and_zero]
  rfl

theorem Pattern.pktWritememAck (ccd scd chan status len rid : BitVec 16) (rest : Bytes) :
    Pattern.Statement (.pktWritememAck ccd scd chan status len rid rest) := by
  refine (Pattern.packet _ _ _ _ _ _ _ _ _ 0xFFFF 0 0 0 0 0xFFFF 0 0 (by decide)
    (by decide) (by decide) (by decide) (by decide) (by decide) (by decide)).trans ?_
  simp only [Nat.and_zero]
  rfl

theorem Pattern.pktPendingAck (ccd scd chan status len rid : BitVec 16) (rest : Bytes) :
    Pattern.Statement (.pktPendingAck ccd scd chan status len rid rest) := by
  refine (Pattern.packet _ _ _ _ _ _ _ _ _ 0xFFFF 0 0 0 0 0xFFFF 0 0 (by decide)
    (by decide) (by decide) (by decide) (by decide) (by decide) (by decide)).trans ?_
  simp only [Nat.and_zero]
  rfl

end Sys2Proof.Laws
end

