-- ==== Sys2Proof/Laws/Ports.lean ====
section
/-! SUPPORT. The results the meanings return are the ports that the statements write out in numbers. -/

namespace Sys2Proof.Machine

theorem okResult_ports : okResult = portsOk := rfl

theorem okWarn_ports (w : Bool) : okWarn w = { portsOk with warn := BitVec.ofBool w } := rfl

theorem okVal_ports (v : BitVec 64) : okVal v = portsVal v := rfl

theorem okTx_ports (p : Bytes) : okTx p = portsTx p := rfl

theorem okIssue_ports (p : Bytes) (rid : BitVec 16) (drain : Bool) :
    okIssue p rid drain = portsIssue p rid drain := by
  cases drain <;> rfl

theorem okDout_ports (d : Bytes) (olen adv : BitVec 16) : okDout d olen adv = portsDout d olen adv := rfl

theorem truncDout_ports (d : Bytes) (olen adv : BitVec 16) :
    truncDout d olen adv = portsTrunc d olen adv := rfl

theorem errResult_ports (kind : BitVec 12) (rid : BitVec 16) (c : Check) :
    errResult kind rid c = portsErr kind rid c.number := rfl

theorem errWarn_ports (kind : BitVec 12) (rid : BitVec 16) (c : Check) (w : Bool) :
    errWarn kind rid c w = { portsErr kind rid c.number with warn := BitVec.ofBool w } := rfl

theorem errIssue_ports (rid : BitVec 16) :
    errIssue rid = { portsErr 2 rid 10 with orid := rid } := rfl

theorem refusedResult_ports (r : Reason) : refusedResult r = portsRefused r.number := rfl

end Sys2Proof.Machine
end

