-- ==== Sys2Proof/Tests/Slice0.lean ====
section
/-! SUPPORT. Tests with expected values from spec/95_test_vectors.md, decode tests with words written
out from the encoding tables, and a witness for the hypotheses of every obligation that has some. -/

namespace Sys2Proof.Tests

-- One test after the other: many kernel evaluations at once need more threads than the memory allows.
set_option Elab.async false

open Machine

/-- The outcome is a next state with the given property. -/
def ends (o : Out) (p : State → Bool) : Bool :=
  match o with
  | .next t => p t
  | .fault _ => false
  | .refused _ => false

theorem ends_next (o : Out) (p : State → Bool) (h : ends o p = true) :
    ∃ t, o = .next t ∧ p t = true := by
  cases o with
  | next t => exact ⟨t, rfl, h⟩
  | fault r => cases h
  | refused r => cases h

/-- A machine with a request of id `rid` outstanding. -/
def waiting (kind : ResponseKind) (rid : BitVec 16) : State :=
  { State.reset with busy := true, reqid := rid, expect := ⟨kind, 1, 20⟩, lastReq := zeros 24 }

/-- A machine of another `MAX_PAYLOAD`. -/
def small (n : Fin 65520) : State := State.resetOf { Config.reference with maxPayload := n }

/-- Packet `G` of 95_test_vectors: a ReadMemAck, id 2, payload 00 00 00 05. -/
def pktG : Bytes :=
  [0x01, 0x00, 0xF7, 0xF8, 0xF7, 0xF3, 0x00, 0x00, 0x00, 0x00, 0x08, 0x01, 0x00, 0x04, 0x00, 0x02,
   0x00, 0x00, 0x00, 0x05]

/-- Packet `W`: a WriteMemAck, id 1. -/
def pktW : Bytes :=
  [0x01, 0x00, 0xF7, 0xF7, 0xF7, 0xF3, 0x00, 0x00, 0x00, 0x00, 0x08, 0x03, 0x00, 0x04, 0x00, 0x01,
   0x00, 0x00, 0x00, 0x04]

/-- Packet `Z`: an empty payload, id 2. -/
def pktZ : Bytes :=
  [0x01, 0x00, 0xF7, 0xFC, 0xF7, 0xFC, 0x00, 0x00, 0x00, 0x00, 0x08, 0x01, 0x00, 0x00, 0x00, 0x02]

/-- Packet `O`: three payload bytes, id 2. -/
def pktO : Bytes :=
  [0x01, 0x00, 0xF7, 0xF9, 0xF3, 0xF7, 0x00, 0x00, 0x00, 0x00, 0x08, 0x01, 0x00, 0x03, 0x00, 0x02,
   0x01, 0x02, 0x03]

/-- Packet `N`: payload 7F C0 00 01, id 7. -/
def pktN : Bytes :=
  [0x01, 0x00, 0xF7, 0xF3, 0x78, 0x32, 0x00, 0x00, 0x00, 0x00, 0x08, 0x01, 0x00, 0x04, 0x00, 0x07,
   0x7F, 0xC0, 0x00, 0x01]

/-- Packet `D`: payload C0 04 00 00 00 00 00 00, id 7. -/
def pktD : Bytes :=
  [0x01, 0x00, 0xF7, 0xEF, 0x37, 0xEB, 0x00, 0x00, 0x00, 0x00, 0x08, 0x01, 0x00, 0x08, 0x00, 0x07,
   0xC0, 0x04, 0x00, 0x00, 0x00, 0x00, 0x00, 0x00]

/-- The Pending-ack of V-VAL-11. -/
def pktPend : Bytes :=
  [0x01, 0x00, 0xF7, 0xF4, 0xF4, 0x0C, 0x00, 0x00, 0x00, 0x00, 0x08, 0x05, 0x00, 0x04, 0x00, 0x02,
   0x00, 0x00, 0x03, 0xE8]

/-- The ReadMem request of V-BLD-4. -/
def pktRd : Bytes :=
  [0x01, 0x00, 0xB7, 0xF1, 0xB5, 0xE5, 0x00, 0x00, 0x40, 0x00, 0x08, 0x00, 0x00, 0x0C, 0x00, 0x02,
   0x00, 0x00, 0x00, 0x00, 0x00, 0x00, 0x02, 0x08, 0x00, 0x00, 0x00, 0x04]

/-- The WriteMem request of V-BLD-12. -/
def pktWr : Bytes :=
  [0x01, 0x00, 0xB7, 0xF0, 0xB5, 0xE3, 0x00, 0x00, 0x40, 0x00, 0x08, 0x02, 0x00, 0x0C, 0x00, 0x01,
   0x00, 0x00, 0x00, 0x00, 0x00, 0x00, 0x02, 0x08, 0x00, 0x00, 0x00, 0x05]

/-! ## WellFormed refuses an ill-formed term for each check -/

theorem test_wf_accepts :
    (Instr.bldWrB 7 0x10 1 [0xAB]).wellFormed = true
      ∧ (Instr.pktReadmemReq 0 0 2 (pktRd.drop 16)).wellFormed = true
      ∧ (Instr.pktWritememAck 0 0 0 0 4 1 (pktW.drop 16)).wellFormed = true := by decide

theorem test_wf_bldWrB_din : (Instr.bldWrB 7 0x10 2 [0xAB]).wellFormed = false := by decide
theorem test_wf_sqWrB_din : (Instr.sqWrB 0x10 0 [0xAB]).wellFormed = false := by decide
theorem test_wf_readReq_length : (Instr.pktReadmemReq 0 0 2 (zeros 11)).wellFormed = false := by
  decide
theorem test_wf_readReq_reserved :
    (Instr.pktReadmemReq 0 0 2 (zeros 8 ++ [0, 1, 0, 4])).wellFormed = false := by decide
theorem test_wf_writeReq_length : (Instr.pktWritememReq 0 0 9 1 (zeros 8)).wellFormed = false := by
  decide
theorem test_wf_writeReq_address : (Instr.pktWritememReq 0 0 7 1 (zeros 7)).wellFormed = false := by
  decide
theorem test_wf_readAck_length : (Instr.pktReadmemAck 0 0 0 0 4 2 (zeros 3)).wellFormed = false := by
  decide
theorem test_wf_writeAck_four : (Instr.pktWritememAck 0 0 0 0 3 1 (zeros 3)).wellFormed = false := by
  decide
theorem test_wf_writeAck_length :
    (Instr.pktWritememAck 0 0 0 0 4 1 (zeros 5)).wellFormed = false := by decide
theorem test_wf_pending_length :
    (Instr.pktPendingAck 0 0 0 0 4 2 (zeros 5)).wellFormed = false := by decide

/-! ## Decoding, words written from R84, R87 and R90 to R98 -/

/-- Every port with a value of its own; the upper bits of `data` are set (D28). -/
def full (op : BitVec 8) : Ports :=
  { op := op, rid := 0x1122, addr := 0x0102030405060708, cnt := 3, data := 0xFEDCBA9876543210
    din := [0x61, 0x62, 0x63], pkt := pktG, cap := 0x0405, tmo := 0x0A0B0C0D }

theorem test_decode_control :
    decodeOp (full 0x01) = .instr .srst
      ∧ decodeOp (full 0x02) = .instr (.wrtmo 0x0A0B0C0D)
      ∧ decodeOp (full 0x03) = .instr .rdst := by decide

theorem test_decode_checksum :
    decodeOp (full 0x10) = .instr .csClr ∧ decodeOp (full 0x11) = .instr (.csPut 0x10)
      ∧ decodeOp (full 0x12) = .instr .csGet := by decide

theorem test_decode_build :
    decodeOp (full 0x20) = .instr (.bldRd 0x1122 0x0102030405060708 3)
      ∧ decodeOp (full 0x28)
          = .instr (.bldWrB 0x1122 0x0102030405060708 3 [0x61, 0x62, 0x63])
      ∧ decodeOp (full 0x29) = .instr (.bldWrU16 0x1122 0x0102030405060708 0x3210)
      ∧ decodeOp (full 0x2A) = .instr (.bldWrU32 0x1122 0x0102030405060708 0x76543210)
      ∧ decodeOp (full 0x2B)
          = .instr (.bldWrU64 0x1122 0x0102030405060708 0xFEDCBA9876543210)
      ∧ decodeOp (full 0x2C) = .instr (.bldWrF32 0x1122 0x0102030405060708 0x76543210)
      ∧ decodeOp (full 0x2D)
          = .instr (.bldWrF64 0x1122 0x0102030405060708 0xFEDCBA9876543210) := by decide

theorem test_decode_validate :
    decodeOp (full 0x30) = .instr (.valRd pktG 0x1122)
      ∧ decodeOp (full 0x31) = .instr (.valWr pktG 0x1122) := by decide

theorem test_decode_extract :
    decodeOp (full 0x40) = .instr (.extB pktG 0x1122 0x0405)
      ∧ decodeOp (full 0x41) = .instr (.extU16 pktG 0x1122)
      ∧ decodeOp (full 0x42) = .instr (.extU32 pktG 0x1122)
      ∧ decodeOp (full 0x43) = .instr (.extU64 pktG 0x1122)
      ∧ decodeOp (full 0x44) = .instr (.extF32 pktG 0x1122)
      ∧ decodeOp (full 0x45) = .instr (.extF64 pktG 0x1122) := by decide

theorem test_decode_issue_read :
    decodeOp (full 0x50) = .instr (.sqRdB 0x0102030405060708 3)
      ∧ decodeOp (full 0x51) = .instr (.sqRdU16 0x0102030405060708)
      ∧ decodeOp (full 0x52) = .instr (.sqRdU32 0x0102030405060708)
      ∧ decodeOp (full 0x53) = .instr (.sqRdU64 0x0102030405060708)
      ∧ decodeOp (full 0x54) = .instr (.sqRdF32 0x0102030405060708)
      ∧ decodeOp (full 0x55) = .instr (.sqRdF64 0x0102030405060708) := by decide

theorem test_decode_issue_write :
    decodeOp (full 0x58) = .instr (.sqWrB 0x0102030405060708 3 [0x61, 0x62, 0x63])
      ∧ decodeOp (full 0x59) = .instr (.sqWrU16 0x0102030405060708 0x3210)
      ∧ decodeOp (full 0x5A) = .instr (.sqWrU32 0x0102030405060708 0x76543210)
      ∧ decodeOp (full 0x5B) = .instr (.sqWrU64 0x0102030405060708 0xFEDCBA9876543210)
      ∧ decodeOp (full 0x5C) = .instr (.sqWrF32 0x0102030405060708 0x76543210)
      ∧ decodeOp (full 0x5D) = .instr (.sqWrF64 0x0102030405060708 0xFEDCBA9876543210) := by
  decide

theorem test_decode_complete :
    decodeOp (full 0x5E) = .instr (.sqAck pktG 0x0405)
      ∧ decodeOp (full 0x5F) = .instr .sqTmo := by decide

theorem test_decode_packets :
    decodePacket pktRd = .instr (.pktReadmemReq 0xB7F1 0xB5E5 2
        [0, 0, 0, 0, 0, 0, 0x02, 0x08, 0, 0, 0, 4])
      ∧ decodePacket pktWr = .instr (.pktWritememReq 0xB7F0 0xB5E3 12 1
        [0, 0, 0, 0, 0, 0, 0x02, 0x08, 0, 0, 0, 5])
      ∧ decodePacket pktG = .instr (.pktReadmemAck 0xF7F8 0xF7F3 0 0 4 2 [0, 0, 0, 5])
      ∧ decodePacket pktW = .instr (.pktWritememAck 0xF7F7 0xF7F3 0 0 4 1 [0, 0, 0, 4])
      ∧ decodePacket pktPend = .instr (.pktPendingAck 0xF7F4 0xF40C 0 0 4 2 [0, 0, 3, 0xE8]) := by
  decide +kernel

theorem test_decode_unknown_packets :
    decodePacket (0x02 :: pktG.drop 1) = .unknownPacket
      ∧ decodePacket (pktG.take 15) = .unknownPacket
      ∧ decodePacket (pktRd.set 8 0x41) = .unknownPacket
      ∧ decodePacket (pktG.set 11 0x04) = .unknownPacket := by decide +kernel

/-- R85's list is what R84 leaves over. -/
theorem test_reserved_opcodes :
    (List.range 256).filter (fun n => !reservedOpcode n)
      = [0x01, 0x02, 0x03, 0x10, 0x11, 0x12, 0x20, 0x28, 0x29, 0x2A, 0x2B, 0x2C, 0x2D, 0x30, 0x31,
         0x40, 0x41, 0x42, 0x43, 0x44, 0x45, 0x50, 0x51, 0x52, 0x53, 0x54, 0x55, 0x58, 0x59, 0x5A,
         0x5B, 0x5C, 0x5D, 0x5E, 0x5F] := by decide +kernel

/-! ## Checksum (2.1) -/

theorem test_checksum_vectors :
    checksum16 [] = some 0xFFFF ∧ checksum16 [0x01] = some 0xFEFF ∧ checksum16 [0xFF] = some 0x00FF
      ∧ checksum16 [0xFF, 0xFF] = some 0x0000 ∧ checksum16 [0x12, 0x34, 0x56] = some 0x97CB
      ∧ checksum16 [0x00, 0x01, 0xF2, 0x03, 0xF4, 0xF5, 0xF6, 0xF7] = some 0x220D := by
  decide +kernel

theorem test_csClr_csGet :
    ends (execAll [.csClr, .csGet] { State.reset with csAcc := 9, csOdd := true, csCnt := 1 })
      (fun t => t.out.val == 0xFFFF && t.csCnt == 0) = true := by decide +kernel

theorem test_csPut_three :
    ends (execAll [.csClr, .csPut 0x12, .csPut 0x34, .csPut 0x56] State.reset)
      (fun t => t.csAcc == 0x00006834 && t.csOdd && t.csCnt == 3) = true := by decide +kernel

theorem test_csPut_overlen :
    ends (exec (.csPut 1) { State.reset with csCnt := 65534 })
        (fun t => t.out.rc == 3 && t.out.reason == 4 && t.csCnt == 65534 && t.csAcc == 0) = true
      ∧ ends (exec (.csPut 1) { State.reset with csCnt := 65533, csOdd := true })
        (fun t => t.out.rc == 0 && t.csCnt == 65534 && t.csAcc == 1) = true := by decide +kernel

theorem test_csGet_value :
    ends (exec .csGet { State.reset with csAcc := 0x00006834, csOdd := true, csCnt := 3 })
      (fun t => t.out.val == 0x97CB && t.csAcc == 0x00006834) = true := by decide +kernel

/-! ## Build (2.2) -/

theorem test_bldRd :
    ends (exec (.bldRd 0x1234 0x0102030405060708 8) State.reset) (fun t => t.out.tx ==
      [0x01, 0x00, 0xA5, 0xBF, 0x95, 0xA3, 0x00, 0x00, 0x40, 0x00, 0x08, 0x00, 0x00, 0x0C, 0x12, 0x34,
       0x01, 0x02, 0x03, 0x04, 0x05, 0x06, 0x07, 0x08, 0x00, 0x00, 0x00, 0x08]
      && t.out.txlen == 28 && t.lastReq == t.out.tx) = true := by decide +kernel

theorem test_bldWrB :
    ends (exec (.bldWrB 7 0x10 1 [0xAB]) State.reset) (fun t => t.out.tx ==
      [0x01, 0x00, 0xB7, 0xED, 0x0C, 0xDD, 0x00, 0x00, 0x40, 0x00, 0x08, 0x02, 0x00, 0x09, 0x00, 0x07,
       0x00, 0x00, 0x00, 0x00, 0x00, 0x00, 0x00, 0x10, 0xAB]) = true := by decide +kernel

theorem test_bldWrB_long :
    ends (exec (.bldWrB 9 0x1000 65 []) { State.reset with lastReq := pktRd }) (fun t =>
      t.out.rc == 1 && t.out.kind == 2 && t.out.erid == 9 && t.out.step == 10
        && t.lastReq == pktRd) = true := by decide +kernel

theorem test_bldWrU16 :
    ends (exec (.bldWrU16 3 0x100 0xBEEF) State.reset) (fun t => t.out.tx ==
      [0x01, 0x00, 0xB7, 0xF0, 0xF8, 0x00, 0x00, 0x00, 0x40, 0x00, 0x08, 0x02, 0x00, 0x0A, 0x00, 0x03,
       0x00, 0x00, 0x00, 0x00, 0x00, 0x00, 0x01, 0x00, 0xBE, 0xEF]) = true := by decide +kernel

theorem test_bldWrU32 :
    ends (exec (.bldWrU32 1 0x208 5) State.reset) (fun t => t.out.tx == pktWr) = true := by
  decide +kernel

theorem test_bldWrU64 :
    ends (exec (.bldWrU64 4 0x108 0x1122334455667788) State.reset) (fun t => t.out.tx ==
      [0x01, 0x00, 0xB7, 0xE9, 0xA5, 0x8C, 0x00, 0x00, 0x40, 0x00, 0x08, 0x02, 0x00, 0x10, 0x00, 0x04,
       0x00, 0x00, 0x00, 0x00, 0x00, 0x00, 0x01, 0x08, 0x11, 0x22, 0x33, 0x44, 0x55, 0x66, 0x77, 0x88])
      = true := by decide +kernel

theorem test_bldWrF32 :
    ends (exec (.bldWrF32 5 0x300 0x7FC00001) State.reset) (fun t => t.out.tx ==
      [0x01, 0x00, 0xB7, 0xEC, 0x35, 0x2B, 0x00, 0x00, 0x40, 0x00, 0x08, 0x02, 0x00, 0x0C, 0x00, 0x05,
       0x00, 0x00, 0x00, 0x00, 0x00, 0x00, 0x03, 0x00, 0x7F, 0xC0, 0x00, 0x01]) = true := by
  decide +kernel

theorem test_bldWrF64 :
    ends (exec (.bldWrF64 6 0x308 0xC004000000000000) State.reset) (fun t => t.out.tx ==
      [0x01, 0x00, 0xB7, 0xE7, 0xF4, 0xDA, 0x00, 0x00, 0x40, 0x00, 0x08, 0x02, 0x00, 0x10, 0x00, 0x06,
       0x00, 0x00, 0x00, 0x00, 0x00, 0x00, 0x03, 0x08, 0xC0, 0x04, 0x00, 0x00, 0x00, 0x00, 0x00, 0x00])
      = true := by decide +kernel

/-! ## Validate (2.3) -/

/-- The result is `Err` with the given kind, id and step. -/
def isErr (kind : BitVec 12) (rid : BitVec 16) (st : BitVec 4) (t : State) : Bool :=
  t.out.rc == 1 && t.out.kind == kind && t.out.erid == rid && t.out.step == st

theorem test_valRd_steps :
    ends (exec (.valRd pktG 2) State.reset) (fun t => t.out.rc == 0) = true
      ∧ ends (exec (.valRd (pktG.take 15) 2) State.reset) (isErr 2 2 0) = true
      ∧ ends (exec (.valRd (pktG.set 0 2) 2) State.reset) (isErr 2 2 1) = true
      ∧ ends (exec (.valRd pktG 3) State.reset) (isErr 2 3 2) = true
      ∧ ends (exec (.valRd (pktG.set 2 0x77) 2) State.reset) (isErr 2 2 3) = true
      ∧ ends (exec (.valRd (pktG.set 19 6) 2) State.reset) (isErr 2 2 4) = true
      ∧ ends (exec (.valRd (pktG.take 19) 2) State.reset) (isErr 2 2 4) = true
      ∧ ends (exec (.valRd pktPend 2) State.reset) (isErr 2 2 5) = true := by decide +kernel

/-- V-VAL-12, V-VAL-15 and V-VAL-24: steps 6 and 7, and the refusal. -/
theorem test_valRd_late :
    ends (exec (.valRd ([0x01, 0x00, 0xF7, 0xBB, 0xD3, 0xB7, 0x00, 0x00, 0x00, 0x00, 0x08, 0x01, 0x00,
        0x41, 0x00, 0x02] ++ (List.range 65).map (BitVec.ofNat 8)) 2) State.reset) (isErr 2 2 6) = true
      ∧ ends (exec (.valRd [0x01, 0x00, 0x36, 0xD9, 0x36, 0xD9, 0x00, 0x00, 0xC1, 0x23, 0x08, 0x01,
        0x00, 0x00, 0x00, 0x02] 2) State.reset) (isErr 0x123 2 7) = true
      ∧ ends (exec (.valRd (zeros 89) 2) State.reset) (fun t => t.out.rc == 3 && t.out.reason == 5)
        = true := by decide +kernel

theorem test_valWr_warn :
    ends (exec (.valWr pktW 9) State.reset) (fun t => t.out.rc == 0 && t.out.warn == 1) = true
      ∧ ends (exec (.valWr pktW 1) State.reset) (fun t => t.out.rc == 0 && t.out.warn == 0) = true
      ∧ ends (exec (.valWr (pktW.set 19 5) 9) State.reset)
        (fun t => isErr 2 9 4 t && t.out.warn == 1) = true := by decide +kernel

/-! ## Extract (2.4) -/

theorem test_extB :
    ends (exec (.extB pktG 2 4) State.reset) (fun t => t.out.rc == 0 && t.out.dout == [0, 0, 0, 5]
        && t.out.olen == 4 && t.out.adv == 4) = true
      ∧ ends (exec (.extB pktO 2 2) State.reset) (fun t => t.out.rc == 2
        && t.out.dout == [1, 2] && t.out.olen == 2 && t.out.adv == 3) = true := by decide +kernel

theorem test_extU16 :
    ends (exec (.extU16 pktO 2) State.reset) (fun t => t.out.rc == 0 && t.out.val == 0x0102) = true
      ∧ ends (exec (.extU16 pktZ 2) State.reset) (isErr 2 2 8) = true := by decide +kernel

theorem test_extU32 :
    ends (exec (.extU32 pktD 7) State.reset) (fun t => t.out.val == 0x00000000C0040000) = true
      ∧ ends (exec (.extU32 pktO 2) State.reset) (isErr 2 2 8) = true := by decide +kernel

theorem test_extU64 : ends (exec (.extU64 pktG 2) State.reset) (isErr 2 2 8) = true := by
  decide +kernel

theorem test_extF32 :
    ends (exec (.extF32 pktN 7) State.reset) (fun t => t.out.val == 0x000000007FC00001) = true := by
  decide +kernel

theorem test_extF64 :
    ends (exec (.extF64 pktD 7) State.reset) (fun t => t.out.val == 0xC004000000000000) = true := by
  decide +kernel

/-! ## Sequencer and control (2.5, R203 to R216) -/

theorem test_sqRdB :
    ends (exec (.sqRdB 0x44 20) State.reset) (fun t => t.out.tx ==
      [0x01, 0x00, 0xB7, 0xF2, 0xB7, 0x9A, 0x00, 0x00, 0x40, 0x00, 0x08, 0x00, 0x00, 0x0C, 0x00, 0x01,
       0x00, 0x00, 0x00, 0x00, 0x00, 0x00, 0x00, 0x44, 0x00, 0x00, 0x00, 0x14]
      && t.reqid == 1 && t.busy && t.expect == ⟨.bytes, 20, 36⟩) = true := by decide +kernel

theorem test_sqRdU16_wrap :
    ends (exec (.sqRdU16 0) { State.reset with reqid := 0xFFFF, rsync := .awaitingFlush }) (fun t =>
      t.reqid == 0 && t.out.orid == 0 && t.out.drain == 1 && t.rsync == .idle
        && t.expect == ⟨.u16, 1, 18⟩) = true := by decide +kernel

theorem test_sqRdU32 :
    ends (exec (.sqRdU32 0x208) { State.reset with reqid := 1 }) (fun t => t.out.tx == pktRd
      && t.out.orid == 2 && t.expect == ⟨.u32, 1, 20⟩) = true := by decide +kernel

theorem test_sqRdU64 :
    ends (exec (.sqRdU64 8) { State.reset with reqid := 1 }) (fun t => t.out.tx ==
      [0x01, 0x00, 0xB7, 0xF1, 0xB7, 0xE1, 0x00, 0x00, 0x40, 0x00, 0x08, 0x00, 0x00, 0x0C, 0x00, 0x02,
       0x00, 0x00, 0x00, 0x00, 0x00, 0x00, 0x00, 0x08, 0x00, 0x00, 0x00, 0x08]
      && t.expect == ⟨.u64, 1, 24⟩) = true := by decide +kernel

theorem test_sqRdF32 :
    ends (exec (.sqRdF32 0x208) { State.reset with reqid := 1 }) (fun t => t.out.tx == pktRd
      && t.expect == ⟨.f32, 1, 20⟩) = true := by decide +kernel

theorem test_sqRdF64 :
    ends (exec (.sqRdF64 8) State.reset) (fun t => t.expect == ⟨.f64, 1, 24⟩ && t.busy) = true := by
  decide +kernel

theorem test_sqWrB :
    ends (exec (.sqWrB 0x20 3 [0x61, 0x62, 0x63]) State.reset) (fun t => t.out.tx ==
      [0x01, 0x00, 0xB7, 0xF1, 0xF3, 0x6E, 0x00, 0x00, 0x40, 0x00, 0x08, 0x02, 0x00, 0x0B, 0x00, 0x01,
       0x00, 0x00, 0x00, 0x00, 0x00, 0x00, 0x00, 0x20, 0x61, 0x62, 0x63]
      && t.expect == ⟨.ack, 0, 20⟩) = true := by decide +kernel

theorem test_sqWrB_long :
    ends (exec (.sqWrB 0 65 []) { State.reset with rsync := .awaitingFlush }) (fun t => isErr 2 1 10 t
      && t.out.orid == 1 && t.reqid == 1 && !t.busy && t.rsync == .awaitingFlush) = true := by
  decide +kernel

theorem test_sqWrU16 :
    ends (exec (.sqWrU16 0x100 0xBEEF) { State.reset with reqid := 0x10 }) (fun t => t.out.tx ==
      [0x01, 0x00, 0xB7, 0xE2, 0xF7, 0xF2, 0x00, 0x00, 0x40, 0x00, 0x08, 0x02, 0x00, 0x0A, 0x00, 0x11,
       0x00, 0x00, 0x00, 0x00, 0x00, 0x00, 0x01, 0x00, 0xBE, 0xEF] && t.out.orid == 0x11) = true := by
  decide +kernel

theorem test_sqWrU32 :
    ends (exec (.sqWrU32 0x208 5) State.reset) (fun t => t.out.tx == pktWr && t.out.orid == 1
      && t.out.drain == 0 && t.expect == ⟨.ack, 0, 20⟩) = true := by decide +kernel

/-- R9's sizes in the reference configuration, and `PKT_MAX` where the two request formats meet. -/
theorem test_sizes : pktMax Config.reference = 88 ∧ rxMax Config.reference = 88
    ∧ pktMax (small 0).cfg = 28 ∧ pktMax (small 4).cfg = 28 ∧ pktMax (small 5).cfg = 29
    ∧ rxMax (small 0).cfg = 28 ∧ rxMax (small 5).cfg = 29 := by decide

theorem test_sqWrU64_small :
    ends (exec (.sqWrU64 0x108 1) (small 7)) (fun t => isErr 2 1 10 t && t.reqid == 1 && !t.busy) = true
      ∧ ends (exec (.sqWrU64 0x108 1) (small 8)) (fun t => t.out.rc == 0 && t.out.txlen == 32) = true :=
  by decide +kernel

theorem test_sqWrF32 :
    ends (exec (.sqWrF32 0x208 5) State.reset) (fun t => t.out.tx == pktWr) = true := by decide +kernel

theorem test_sqWrF64 :
    ends (exec (.sqWrF64 0x308 0xC004000000000000) State.reset) (fun t => t.out.txlen == 32
      && t.lastReq.drop 24 == [0xC0, 0x04, 0, 0, 0, 0, 0, 0]) = true := by decide +kernel

theorem test_sqAck_ok :
    ends (exec (.sqAck pktW 0) (waiting .ack 1)) (fun t => t.out.rc == 0 && t.out.warn == 0 && !t.busy
        && t.rsync == .idle) = true
      ∧ ends (exec (.sqAck pktG 0) (waiting .u32 2)) (fun t => t.out.val == 5 && !t.busy) = true := by
  decide +kernel

/-- V-SQ-5, V-SQ-9 and V-SQ-15. -/
theorem test_sqAck_failures :
    ends (exec (.sqAck pktW 0) State.reset) (fun t => t.out.rc == 3 && t.out.reason == 3) = true
      ∧ ends (exec (.sqAck pktO 2) (waiting .bytes 2)) (fun t => t.out.rc == 2 && t.out.dout == [1, 2]
        && t.out.adv == 3 && !t.busy && t.rsync == .awaitingFlush) = true
      ∧ ends (exec (.sqAck pktG 0) (waiting .u64 1)) (fun t => isErr 2 1 2 t && !t.busy
        && t.rsync == .awaitingFlush) = true := by decide +kernel

/-- The fault of log 10, and no fault one condition short of it. -/
theorem test_sqAck_expectNone :
    exec (.sqAck pktG 0) (waiting .none 2) = .fault .expectNone
      ∧ ends (exec (.sqAck [] 0) (waiting .none 2)) (fun t => t.out.step == 9) = true
      ∧ ends (exec (.sqAck (zeros 89) 0) (waiting .none 2)) (fun t => t.out.reason == 5) = true
      ∧ ends (exec (.sqAck pktG 0) State.reset) (fun t => t.out.reason == 3) = true :=
  ⟨rfl, by decide +kernel, by decide +kernel, by decide +kernel⟩

/-- V-SQ-6, V-SQ-11 and V-SQ-12. -/
theorem test_sqTmo :
    ends (exec .sqTmo State.reset) (fun t => t.out.rc == 3 && t.out.reason == 3) = true
      ∧ ends (exec .sqTmo (waiting .ack 3)) (fun t => isErr 0x00B 3 9 t && !t.busy && t.rsync == .idle)
        = true
      ∧ ends (exec (.sqAck [] 0) { waiting .ack 3 with tmo := 1000 }) (fun t => isErr 0x00B 3 9 t
        && !t.busy && t.rsync == .awaitingFlush) = true := by decide +kernel

theorem test_srst :
    ends (exec .srst { waiting .ack 0x12 with csCnt := 5, tmo := 7 }) (fun t => t.reqid == 0 && !t.busy
      && t.lastReq == [] && t.tmo == 0 && t.csCnt == 0 && t.expect == ⟨.none, 0, 0⟩) = true := by
  decide +kernel

theorem test_wrtmo :
    ends (exec (.wrtmo 1000) (waiting .ack 1)) (fun t => t.tmo == 1000 && t.busy) = true := by
  decide +kernel

theorem test_rdst :
    ends (exec .rdst (waiting .f64 0x12)) (fun t => t.out.reqid == 0x12 && t.out.busy == 1
      && t.out.ekind == 7 && t.out.elen == 20 && t.out.txlen == 24) = true := by decide +kernel

/-- The packet operand of the operation that is pending first. -/
def nextPkt (t : State) : Bytes :=
  match t.pending with
  | .issue p :: _ => p.pkt
  | _ => []

/-- Each packet becomes the operand `pkt` of the operation issued next, and of no later one. -/
theorem test_packet_arrives :
    let s : State := { State.reset with pending := [.issue (full 0x31), .issue (full 0x5E)] }
    ends (exec (.pktReadmemAck 0xF7F8 0xF7F3 0 0 4 2 [0, 0, 0, 5]) s)
        (fun t => nextPkt t == pktG && t.pending.drop 1 == [.issue (full 0x5E)]) = true
      ∧ ends (exec (.pktReadmemReq 0xB7F1 0xB5E5 2 (pktRd.drop 16)) s) (nextPkt · == pktRd) = true
      ∧ ends (exec (.pktWritememReq 0xB7F0 0xB5E3 12 1 (pktWr.drop 16)) s) (nextPkt · == pktWr) = true
      ∧ ends (exec (.pktWritememAck 0xF7F7 0xF7F3 0 0 4 1 [0, 0, 0, 4]) s) (nextPkt · == pktW) = true
      ∧ ends (exec (.pktPendingAck 0xF7F4 0xF40C 0 0 4 2 [0, 0, 3, 0xE8]) s) (nextPkt · == pktPend)
        = true := by decide +kernel

/-- A received packet is the operand of the operation issued after it. -/
theorem test_step_receive_then_ack :
    ends (step { waiting .u32 2 with
        pending := [.receive pktG, .issue (Ports.ofOp 0x5E)] })
      (fun t => ends (step t) (fun u => u.out.val == 5 && !u.busy && u.pending == [])) = true
      ∧ ends (step { waiting .u32 2 with pending := [.receive pktG, .reset, .issue (full 0x40)] })
        (fun t => t.pending == [.reset, .issue (full 0x40)]) = true := by
  decide +kernel

theorem test_withFetchWord :
    ends (step (State.reset.withFetchWord 8 0x5A)) (fun t => t.busy && t.reqid == 1) = true
      ∧ ends (step (State.reset.withFetchWord 8 0x04)) (fun t => t.out.reason == 1) = true
      ∧ ends (step (State.reset.withFetchWord 128 0x01000000000000000000080100000000))
        (fun t => t.pending == [] && !t.busy) = true := by decide +kernel

theorem test_asm_text :
    asmText (.sqWrU32 0x208 5) = "SQ.WR.U32 addr=0x0000000000000208, data=0x00000005" := by
  decide +kernel

/-! ## Witnesses: a state and operands that meet the hypotheses of each obligation -/

theorem witness_EncodeOfDecodedPacket : ∃ i, decodePacket pktG = .instr i :=
  ⟨.pktReadmemAck 0xF7F8 0xF7F3 0 0 4 2 [0, 0, 0, 5], by decide +kernel⟩

/-- Each opcode of R84 meets its own clause, and the reserved ranges at their ends meet the last. -/
theorem witness_OpcodeMap :
    (Ports.ofOp 0x01#8).op = 0x01#8 ∧ (full 0x5F#8).op = 0x5F#8
      ∧ [0x00, 0x04, 0x0F, 0x13, 0x1F, 0x21, 0x27, 0x2E, 0x2F, 0x32, 0x3F, 0x46, 0x4F, 0x56, 0x57,
          0x60, 0xFF].all (fun n => reservedOpcode (Ports.ofOp (BitVec.ofNat 8 n)).op.toNat) = true := by
  decide +kernel

theorem witness_StepRunsDecodedInstruction :
    ({ State.reset with pending := [.issue (full 0x5A), .reset] }).pending
        = .issue (full 0x5A) :: [.reset]
      ∧ decode (.issue (full 0x5A))
        = .instr (.sqWrU32 0x0102030405060708 0x76543210) := by decide

theorem witness_IdleStepHoldsState : State.reset.pending = [] := rfl

theorem witness_ReservedOpcodeRefused :
    ({ waiting .ack 1 with pending := [.issue (full 0xFF)] }).pending = .issue (full 0xFF) :: []
      ∧ reservedOpcode (full 0xFF).op.toNat = true ∧ reservedOpcode (full 0x00).op.toNat = true := by
  decide

/-- Bytes before an operation, before another event, and before nothing. -/
theorem witness_ReceivedBytesOnlyLoadRxbuf :
    ({ State.reset with pending := [.receive pktG, .issue (full 0x5E), .reset] }).pending
        = .receive pktG :: .issue (full 0x5E) :: [.reset]
      ∧ ({ State.reset with pending := [.receive pktG, .reset] }).pending = .receive pktG :: [.reset]
      ∧ (∀ p more, ([.reset] : List Event) ≠ .issue p :: more)
      ∧ ∀ p more, ([] : List Event) ≠ .issue p :: more :=
  ⟨rfl, rfl, fun _ _ h => (by cases h), fun _ _ h => (by cases h)⟩

theorem witness_PacketRowsLoadRxbuf :
    family (.pktReadmemReq 1 2 3 []) = .packet ∧ family (.pktWritememReq 1 2 3 4 []) = .packet
      ∧ family (.pktReadmemAck 1 2 3 4 5 6 []) = .packet
      ∧ family (.pktWritememAck 1 2 3 4 5 6 []) = .packet
      ∧ family (.pktPendingAck 1 2 3 4 5 6 []) = .packet
      ∧ ({ State.reset with pending := [.issue (full 0x30)] }).pending = .issue (full 0x30) :: []
      ∧ ∀ p more, State.reset.pending ≠ .issue p :: more :=
  ⟨rfl, rfl, rfl, rfl, rfl, rfl, fun _ _ h => by cases h⟩

theorem witness_ResetInputResetsRegisters :
    ({ waiting .ack 1 with pending := [.reset, .issue (full 1)] }).pending
      = .reset :: [.issue (full 1)] := rfl

theorem witness_ChecksumChunksAndPadding :
    (∀ c ∈ ([[1, 2], [3, 4]] : List Bytes), c.length % 2 = 0)
      ∧ (([[1, 2], [3, 4]] : List Bytes).flatten ++ [5]).length ≤ 65534
      ∧ ([5] : Bytes).length % 2 = 1 := by decide

/-- Both extremes at their smallest inputs, and the longest input of the contract. -/
theorem witness_ChecksumExtremes :
    ([] : Bytes).length ≤ 65534 ∧ checksum16 [] = some 0xFFFF#16
      ∧ checksum16 [0xFF, 0xFF] = some 0x0000#16 ∧ (zeros 65534).length ≤ 65534 := by
  refine ⟨by decide, by decide +kernel, by decide +kernel, ?_⟩
  rw [zeros, List.length_replicate]

theorem witness_ChecksumBlindToWordSwap :
    ([1, 2] : Bytes).length % 2 = 0 ∧ ([] : Bytes).length % 2 = 0 := by decide

/-- The bound, the values on both sides of it, and the wrap of log 7 at 65535. -/
theorem witness_CsPutAddsByte :
    ({ State.reset with csCnt := 65534 }).csCnt = 65534#16
      ∧ ({ State.reset with csCnt := 65532 }).csCnt ≠ 65534#16
      ∧ ({ State.reset with csCnt := 65532 }).csOdd = false
      ∧ ({ State.reset with csCnt := 65533, csOdd := true }).csCnt ≠ 65534#16
      ∧ ({ State.reset with csCnt := 65533, csOdd := true }).csOdd = true
      ∧ ({ State.reset with csCnt := 65535, csOdd := true }).csCnt ≠ 65534#16
      ∧ ({ State.reset with csCnt := 65535, csOdd := true }).csOdd = true
      ∧ ({ State.reset with csCnt := 65535 }).csOdd = false := by decide

theorem witness_CsRegistersAfterPuts : ([0x12, 0x34, 0x56] : Bytes).length ≤ 65534 := by decide

theorem witness_ByteSerialComputesChecksum :
    ([0x12, 0x34, 0x56] : Bytes).length ≤ 65534 ∧ (zeros 65534).length ≤ 65534 := by
  refine ⟨by decide, ?_⟩
  rw [zeros, List.length_replicate]

/-- Each register's values, one for each clause. -/
theorem witness_RdstShowsEveryRegister :
    State.reset.busy = false ∧ (waiting .ack 1).busy = true ∧ State.reset.rsync = .idle
      ∧ ({ State.reset with rsync := .awaitingFlush }).rsync = .awaitingFlush
      ∧ [ResponseKind.none, .ack, .bytes, .u16, .u32, .u64, .f32, .f64].map
          (fun k => (waiting k 1).expect.kind) = [.none, .ack, .bytes, .u16, .u32, .u64, .f32, .f64]
      ∧ State.reset.csOdd = false ∧ ({ State.reset with csOdd := true }).csOdd = true := by decide

theorem witness_ChecksumRegistersIndependent :
    family (.sqWrU32 0x208 5) ≠ .checksum ∧ family (.sqWrU32 0x208 5) ≠ .control
      ∧ (∃ t, exec (.sqWrU32 0x208 5) { State.reset with csCnt := 3 } = .next t)
      ∧ family (.csPut 7) = .checksum ∧ State.reset.csAcc = (waiting .ack 1).csAcc
      ∧ State.reset.csOdd = (waiting .ack 1).csOdd ∧ State.reset.csCnt = (waiting .ack 1).csCnt := by
  refine ⟨by decide, by decide, ?_, by decide, rfl, rfl, rfl⟩
  obtain ⟨t, h, -⟩ := ends_next (exec (.sqWrU32 0x208 5) { State.reset with csCnt := 3 })
    (fun _ => true) (by decide +kernel)
  exact ⟨t, h⟩

theorem witness_BldRdBuildsReadRequest :
    (waiting .ack 1).busy = true ∧ State.reset.busy = false := by decide

/-- The clauses meet at `MAX_PAYLOAD`: 64 is built, 65 fails, as does 65517 with the largest one. -/
theorem witness_BldWrBBuildsWriteRequest :
    (waiting .ack 1).busy = true ∧ State.reset.busy = false
      ∧ State.reset.cfg.maxPayload.val < (65#16).toNat
      ∧ ((small 65519).busy = false ∧ 65516 < (65517#16).toNat)
      ∧ ((64#16).toNat ≤ State.reset.cfg.maxPayload.val ∧ (64#16).toNat ≤ 65516
          ∧ (64#16).toNat ≤ (zeros 64).length) := by decide +kernel

theorem witness_BldWrBKeepsPresentedBytes :
    State.reset.busy = false ∧ (64#16).toNat ≤ State.reset.cfg.maxPayload.val
      ∧ (64#16).toNat ≤ 65516 ∧ (zeros 63).length < (64#16).toNat := by decide +kernel

/-- For each payload width, a `MAX_PAYLOAD` at which it fits and one at which it does not. -/
theorem witness_ScalarBuildsWriteRequest :
    (waiting .ack 1).busy = true ∧ (small 2).busy = false
      ∧ (encBe 2 0xBEEF).length ≤ (small 2).cfg.maxPayload.val
      ∧ (small 1).cfg.maxPayload.val < (encBe 2 0xBEEF).length
      ∧ (encBe 4 5).length ≤ (small 4).cfg.maxPayload.val
      ∧ (small 3).cfg.maxPayload.val < (encBe 4 5).length
      ∧ (encBe 8 5).length ≤ (small 8).cfg.maxPayload.val
      ∧ (small 7).cfg.maxPayload.val < (encBe 8 5).length := by decide +kernel

theorem witness_BuiltPacketIsRequestPacket :
    family (.bldRd 2 0x208 4) = .build ∧ isIssue (.sqRdU32 0x208) = true
      ∧ (∃ t, exec (.bldRd 2 0x208 4) State.reset = .next t ∧ t.out.rc = 0)
      ∧ ∃ t, exec (.sqRdU32 0x208) State.reset = .next t ∧ t.out.rc = 0 := by
  refine ⟨rfl, rfl, ?_, ?_⟩
  · obtain ⟨t, h, hp⟩ := ends_next (exec (.bldRd 2 0x208 4) State.reset) (fun t => t.out.rc == 0)
      (by decide +kernel)
    exact ⟨t, h, by simpa using hp⟩
  · obtain ⟨t, h, hp⟩ := ends_next (exec (.sqRdU32 0x208) State.reset) (fun t => t.out.rc == 0)
      (by decide +kernel)
    exact ⟨t, h, by simpa using hp⟩

theorem witness_WriteRequestLayout :
    buildWrite Config.reference 1 0x208 [0, 0, 0, 5] = some pktWr := by decide +kernel

/-- Two ids, an address word at either end, and a payload word; a built pair for each clause. -/
theorem witness_RequestIdBlindSpot :
    (buildWrite Config.reference 0x0000 8 [1]).isSome = true
      ∧ (buildWrite Config.reference 0xFFFF 8 [1]).isSome = true
      ∧ WordFlip 0 0x0001000200030000 0x000100020003FFFF
      ∧ WordFlip 3 0x0000000200030004 0xFFFF000200030004
      ∧ (buildWrite Config.reference 1 0x0001000200030000 [1]).isSome = true
      ∧ (buildWrite Config.reference 1 0x000100020003FFFF [1]).isSome = true
      ∧ ([1, 2] : Bytes).length % 2 = 0
      ∧ (buildWrite Config.reference 1 8 ([1, 2] ++ [0x00#8, 0x00#8] ++ [3])).isSome = true
      ∧ (buildWrite Config.reference 1 8 ([1, 2] ++ [0xFF#8, 0xFF#8] ++ [3])).isSome = true := by
  unfold WordFlip
  decide +kernel

theorem witness_ValidationAcceptsAck :
    pktG.length ≤ rxMax State.reset.cfg ∧ AcceptableAck State.reset.cfg 0x0801#16 pktG
      ∧ be16 pktG 14 = 2 ∧ pktW.length ≤ rxMax State.reset.cfg
      ∧ AcceptableAck State.reset.cfg 0x0803#16 pktW := by decide +kernel

theorem witness_ValidationReportsFirstFailure :
    pktG.length ≤ rxMax State.reset.cfg ∧ (zeros 88).length ≤ rxMax State.reset.cfg := by
  decide +kernel

theorem witness_WarnExactlyOnForeignWriteAck :
    family (.valWr pktW 9) ≠ .packet
      ∧ ∃ t, exec (.valWr pktW 9) State.reset = .next t ∧ t.out.warn = 1 := by
  refine ⟨by decide, ?_⟩
  obtain ⟨t, h, hp⟩ := ends_next (exec (.valWr pktW 9) State.reset) (fun t => t.out.warn == 1)
    (by decide +kernel)
  exact ⟨t, h, by simpa using hp⟩

theorem witness_CodecWritesNoRegister :
    family (.valRd pktG 3) = .validate ∧ family (.extU32 pktG 3) = .extract
      ∧ ridOperand (.extU32 pktG 3) = some 3
      ∧ ∃ t, exec (.extU32 pktG 3) State.reset = .next t ∧ t.out.rc = 1 := by
  refine ⟨rfl, rfl, rfl, ?_⟩
  obtain ⟨t, h, hp⟩ := ends_next (exec (.extU32 pktG 3) State.reset) (fun t => t.out.rc == 1)
    (by decide +kernel)
  exact ⟨t, h, by simpa using hp⟩

theorem witness_ReceiveRangeRule :
    pktOperand (.extB (zeros 89) 2 4) = some (zeros 89) ∧ ridOperand (.extB (zeros 89) 2 4) = some 2
      ∧ rxMax State.reset.cfg < (zeros 89).length
      ∧ pktOperand (.valRd [] 2) = some [] ∧ ridOperand (.valRd [] 2) = some 2 := by decide +kernel

theorem witness_TrailingBytesIgnored :
    16 ≤ pktG.length ∧ 16 + (be16 pktG 12).toNat ≤ pktG.length
      ∧ (pktG ++ [0xDE, 0xAD]).length ≤ rxMax State.reset.cfg := by decide +kernel

/-- For each width, a payload that is just long enough and one that is just too short. -/
theorem witness_ScalarExtractDelivers :
    pktG.length ≤ rxMax State.reset.cfg ∧ AcceptableAck State.reset.cfg 0x0801#16 pktG
      ∧ be16 pktG 14 = 2 ∧ 4 ≤ (be16 pktG 12).toNat ∧ 2 ≤ (be16 pktG 12).toNat
      ∧ (be16 pktG 12).toNat < 8
      ∧ AcceptableAck State.reset.cfg 0x0801#16 pktO ∧ be16 pktO 14 = 2 ∧ (be16 pktO 12).toNat < 4
      ∧ AcceptableAck State.reset.cfg 0x0801#16 pktZ ∧ be16 pktZ 14 = 2 ∧ (be16 pktZ 12).toNat < 2
      ∧ AcceptableAck State.reset.cfg 0x0801#16 pktD ∧ be16 pktD 14 = 7
      ∧ 8 ≤ (be16 pktD 12).toNat := by decide +kernel

theorem witness_ExtBCopiesPayload :
    pktG.length ≤ rxMax State.reset.cfg ∧ AcceptableAck State.reset.cfg 0x0801#16 pktG
      ∧ be16 pktG 14 = 2 ∧ (be16 pktG 12).toNat ≤ (4#16).toNat
      ∧ (3#16).toNat < (be16 pktG 12).toNat := by decide +kernel

theorem witness_ExtractionValidatesFirst :
    family (.extU32 pktG 3) = .extract ∧ pktOperand (.extU32 pktG 3) = some pktG
      ∧ ridOperand (.extU32 pktG 3) = some 3
      ∧ ∃ t, exec (.valRd pktG 3) State.reset = .next t ∧ t.out.rc ≠ 0 := by
  refine ⟨rfl, rfl, rfl, ?_⟩
  obtain ⟨t, h, hp⟩ := ends_next (exec (.valRd pktG 3) State.reset) (fun t => t.out.rc != 0)
    (by decide +kernel)
  exact ⟨t, h, by simpa using hp⟩

/-- A field at the start, at the end and of no width, and bytes on both sides of it. -/
theorem witness_NumericRoundTrip :
    0 < 4 ∧ 3 < 4 ∧ 0 + 2 ≤ pktG.length ∧ 18 + 2 ≤ pktG.length ∧ 16 + 4 ≤ pktG.length
      ∧ 20 + 0 ≤ pktG.length ∧ (15 < 16 ∨ 16 + 4 ≤ 15) ∧ (20 < 16 ∨ 16 + 4 ≤ 20) := by decide

theorem witness_FramedAckValidates :
    (0x7FFF#16).getLsbD 15 = false
      ∧ (zeros 64).length ≤ State.reset.cfg.maxPayload.val := by decide +kernel

theorem witness_ReadIssues : (waiting .ack 1).busy = true ∧ State.reset.busy = false := by decide

theorem witness_ScalarWriteIssues :
    (waiting .ack 1).busy = true ∧ (small 2).busy = false
      ∧ (encBe 2 0xBEEF).length ≤ (small 2).cfg.maxPayload.val
      ∧ (small 1).cfg.maxPayload.val < (encBe 2 0xBEEF).length
      ∧ (encBe 4 5).length ≤ (small 4).cfg.maxPayload.val
      ∧ (small 3).cfg.maxPayload.val < (encBe 4 5).length
      ∧ (encBe 8 5).length ≤ (small 8).cfg.maxPayload.val
      ∧ (small 7).cfg.maxPayload.val < (encBe 8 5).length := by decide +kernel

theorem witness_ByteWriteIssue :
    (waiting .ack 1).busy = true ∧ State.reset.busy = false
      ∧ State.reset.cfg.maxPayload.val < (65#16).toNat
      ∧ ((small 65519).busy = false ∧ 65516 < (65517#16).toNat)
      ∧ ((64#16).toNat ≤ State.reset.cfg.maxPayload.val ∧ (64#16).toNat ≤ 65516
          ∧ (64#16).toNat ≤ (zeros 64).length ∧ (zeros 63).length < (64#16).toNat) := by
  decide +kernel

/-- The four clauses; the last for every kind but NONE. -/
theorem witness_AckCompletesRequest :
    State.reset.busy = false
      ∧ ((waiting .ack 1).busy = true ∧ rxMax (waiting .ack 1).cfg < (zeros 89).length)
      ∧ pktG ≠ [] ∧ (zeros 88).length ≤ rxMax (waiting .ack 1).cfg ∧ zeros 88 ≠ []
      ∧ [ResponseKind.ack, .bytes, .u16, .u32, .u64, .f32, .f64].all
          (fun k => (waiting k 1).busy && (waiting k 1).expect.kind != .none) = true := by
  decide +kernel

theorem witness_TimeoutEndsRequest :
    State.reset.busy = false ∧ (waiting .ack 1).busy = true ∧ (waiting .ack 1).tmo = 0
      ∧ ({ waiting .ack 1 with tmo := 1 }).tmo ≠ 0 := by decide

theorem witness_OnlyStopIsMissingExpectation :
    (waiting .none 2).busy = true ∧ pktG ≠ [] ∧ pktG.length ≤ rxMax (waiting .none 2).cfg
      ∧ (waiting .none 2).expect.kind = .none
      ∧ exec .srst State.reset ≠ .fault .expectNone :=
  ⟨rfl, by decide, by decide +kernel, rfl, fun h => by cases h⟩

/-- Each reason has its case, at the boundary of its range, and a case without a refusal. -/
theorem witness_RefusedExactlyForCause :
    refusalCause (.bldRd 0 0 0) (waiting .ack 1) = some 2
      ∧ refusalCause (.sqRdU16 0) (waiting .ack 1) = some 2
      ∧ refusalCause .sqTmo State.reset = some 3
      ∧ refusalCause (.sqAck (zeros 89) 0) State.reset = some 3
      ∧ refusalCause (.sqAck (zeros 89) 0) (waiting .ack 1) = some 5
      ∧ refusalCause (.valRd (zeros 89) 0) State.reset = some 5
      ∧ refusalCause (.valRd (zeros 88) 0) State.reset = none
      ∧ refusalCause (.csPut 1) { State.reset with csCnt := 65534 } = some 4
      ∧ refusalCause (.csPut 1) { State.reset with csCnt := 65533 } = none
      ∧ family (.csPut 1) ≠ .packet
      ∧ ∃ t, exec (.csPut 1) { State.reset with csCnt := 65533 } = .next t := by
  refine ⟨by decide, by decide, by decide, by decide, by decide +kernel, by decide +kernel,
    by decide +kernel, by decide, by decide, by decide, ?_⟩
  obtain ⟨t, h, -⟩ := ends_next (exec (.csPut 1) { State.reset with csCnt := 65533 }) (fun _ => true)
    (by decide +kernel)
  exact ⟨t, h⟩

/-- An issue that succeeds, one that is refused, one that fails, an operation that is no issue, and
SRST. -/
theorem witness_ReqidOnlyByIssue :
    (∃ t, exec (.sqRdU16 0) { State.reset with reqid := 0xFFFF } = .next t ∧ t.out.rc = 0)
      ∧ isIssue (.sqRdU16 0) = true ∧ State.reset.busy = false ∧ (waiting .ack 1).busy = true
      ∧ (∃ t, exec (.sqRdU16 0) (waiting .ack 1) = .next t)
      ∧ (∃ t, exec (.sqWrB 0 65 []) State.reset = .next t)
      ∧ (∃ t, exec (.wrtmo 1) State.reset = .next t) ∧ isIssue (.wrtmo 1) = false
      ∧ ∃ t, exec .srst (waiting .ack 1) = .next t := by
  obtain ⟨t1, h1, p1⟩ := ends_next (exec (.sqRdU16 0) { State.reset with reqid := 0xFFFF })
    (fun t => t.out.rc == 0) (by decide +kernel)
  obtain ⟨t2, h2, -⟩ := ends_next (exec (.sqRdU16 0) (waiting .ack 1)) (fun _ => true)
    (by decide +kernel)
  obtain ⟨t3, h3, -⟩ := ends_next (exec (.sqWrB 0 65 []) State.reset) (fun _ => true)
    (by decide +kernel)
  exact ⟨⟨t1, h1, by simpa using p1⟩, rfl, rfl, rfl, ⟨t2, h2⟩, ⟨t3, h3⟩, ⟨_, rfl⟩, rfl, ⟨_, rfl⟩⟩

theorem witness_OneRequestOutstanding :
    (waiting .ack 1).busy = true ∧ (.csGet : Instr) ≠ .srst ∧ (.csGet : Instr) ≠ .rdst
      ∧ family .csGet ≠ .packet ∧ ∃ t, exec .csGet (waiting .ack 1) = .next t :=
  ⟨rfl, by decide, by decide, by decide, _, rfl⟩

/-- One case for each row of the table of R221. -/
theorem witness_ResyncTransitionTable :
    (∃ t, exec .srst (waiting .ack 1) = .next t)
      ∧ (∃ t, exec (.sqRdU16 0) { State.reset with rsync := .awaitingFlush } = .next t ∧ t.out.rc = 0)
      ∧ (∃ t, exec (.sqRdU16 0) (waiting .ack 1) = .next t ∧ t.out.rc ≠ 0)
      ∧ (∃ t, exec (.sqAck pktW 0) (waiting .ack 1) = .next t ∧ t.out.rc = 0)
      ∧ (∃ t, exec (.sqAck pktG 0) (waiting .u32 1) = .next t ∧ t.out.rc = 1 ∧ t.out.step ≠ 9)
      ∧ (∃ t, exec (.sqAck pktO 2) (waiting .bytes 2) = .next t ∧ t.out.rc = 2 ∧ t.out.step ≠ 9)
      ∧ (∃ t, exec .sqTmo (waiting .ack 1) = .next t ∧ t.out.rc = 1 ∧ t.out.step = 9)
      ∧ (∃ t, exec .sqTmo State.reset = .next t ∧ t.out.rc = 3)
      ∧ ∃ t, exec (.wrtmo 1) State.reset = .next t := by
  obtain ⟨t2, h2, p2⟩ := ends_next (exec (.sqRdU16 0) { State.reset with rsync := .awaitingFlush })
    (fun t => t.out.rc == 0) (by decide +kernel)
  obtain ⟨t3, h3, p3⟩ := ends_next (exec (.sqRdU16 0) (waiting .ack 1)) (fun t => t.out.rc != 0)
    (by decide +kernel)
  obtain ⟨t4, h4, p4⟩ := ends_next (exec (.sqAck pktW 0) (waiting .ack 1)) (fun t => t.out.rc == 0)
    (by decide +kernel)
  obtain ⟨t5, h5, p5⟩ := ends_next (exec (.sqAck pktG 0) (waiting .u32 1))
    (fun t => t.out.rc == 1 && t.out.step != 9) (by decide +kernel)
  obtain ⟨t6, h6, p6⟩ := ends_next (exec (.sqAck pktO 2) (waiting .bytes 2))
    (fun t => t.out.rc == 2 && t.out.step != 9) (by decide +kernel)
  obtain ⟨t7, h7, p7⟩ := ends_next (exec .sqTmo (waiting .ack 1))
    (fun t => t.out.rc == 1 && t.out.step == 9) (by decide +kernel)
  obtain ⟨t8, h8, p8⟩ := ends_next (exec .sqTmo State.reset) (fun t => t.out.rc == 3)
    (by decide +kernel)
  exact ⟨⟨_, rfl⟩, ⟨t2, h2, by simpa using p2⟩, ⟨t3, h3, by simpa using p3⟩,
    ⟨t4, h4, by simpa using p4⟩, ⟨t5, h5, by simpa using p5⟩, ⟨t6, h6, by simpa using p6⟩,
    ⟨t7, h7, by simpa using p7⟩, ⟨t8, h8, by simpa using p8⟩, ⟨_, rfl⟩⟩

theorem witness_FailureEntryChangesTwoRegisters :
    ∃ t, exec (.sqAck pktG 0) (waiting .u32 1) = .next t ∧ (waiting .u32 1).rsync = .idle
      ∧ t.rsync = .awaitingFlush := by
  obtain ⟨t, h, p⟩ := ends_next (exec (.sqAck pktG 0) (waiting .u32 1))
    (fun t => t.rsync == .awaitingFlush) (by decide +kernel)
  exact ⟨t, h, rfl, by simpa using p⟩

theorem witness_MeaninglessPortsAreZero :
    family .csGet ≠ .packet ∧ isIssue .csGet = false ∧ (.csGet : Instr) ≠ .rdst
      ∧ (∃ t, exec .csGet State.reset = .next t ∧ t.out.rc ≠ 1 ∧ t.out.rc ≠ 3 ∧ t.out.val ≠ 0)
      ∧ ∃ t, exec (.bldRd 0 0 0) (waiting .ack 1) = .next t ∧ t.out.rc ≠ 0 ∧ t.out.rc ≠ 2 := by
  refine ⟨by decide, rfl, by decide, ?_, ?_⟩
  · obtain ⟨t, h, p⟩ := ends_next (exec .csGet State.reset)
      (fun t => t.out.rc != 1 && t.out.rc != 3 && t.out.val != 0) (by decide +kernel)
    exact ⟨t, h, by simpa [and_assoc] using p⟩
  · obtain ⟨t, h, p⟩ := ends_next (exec (.bldRd 0 0 0) (waiting .ack 1))
      (fun t => t.out.rc != 0 && t.out.rc != 2) (by decide +kernel)
    exact ⟨t, h, by simpa using p⟩

theorem witness_ReadRoundTrip :
    (small 4).busy = false ∧ 4 ≤ (small 4).cfg.maxPayload.val := by decide

/-- A state with a request outstanding and the largest checksum count but one meets the invariant, and
an issued CS.PUT answers a next state; a ReadMem request in an engine of `MAX_PAYLOAD` 3, and the largest
packet in one of `MAX_PAYLOAD` 4, meet it too. -/
theorem witness_StepKeepsEngineInvariant :
    EngineInv true
        { waiting .ack 1 with csCnt := 65533, csOdd := true, pending := [.issue (full 0x11)] }
      ∧ (∃ t, step { waiting .ack 1 with
          csCnt := 65533, csOdd := true, pending := [.issue (full 0x11)] } = .next t)
      ∧ EngineInv false { small 3 with lastReq := pktRd }
      ∧ EngineInv false { small 4 with lastReq := pktRd } := by
  refine ⟨⟨by decide, by decide, by decide, by decide, by decide +kernel, by decide +kernel,
    by decide +kernel, by decide, by decide, by decide⟩, ?_, ⟨by decide, by decide, by decide, by decide,
    by decide +kernel, by decide +kernel, by decide +kernel, by decide, by decide, by decide⟩,
    ⟨by decide, by decide, by decide, by decide, by decide +kernel, by decide +kernel,
    by decide +kernel, by decide, by decide, by decide⟩⟩
  obtain ⟨t, h, -⟩ := ends_next (step { waiting .ack 1 with
    csCnt := 65533, csOdd := true, pending := [.issue (full 0x11)] }) (fun _ => true)
    (by decide +kernel)
  exact ⟨t, h⟩

theorem witness_StepKeepsRequestPacket :
    LastReqInv { State.reset with lastReq := pktWr, pending := [.issue (full 0x50)] }
      ∧ ∃ t, step { State.reset with lastReq := pktWr, pending := [.issue (full 0x50)] } = .next t := by
  refine ⟨.inr ⟨1, ⟨by decide +kernel, by decide +kernel, by decide +kernel, by decide +kernel,
    by decide +kernel, by decide +kernel, by decide +kernel⟩⟩, ?_⟩
  obtain ⟨t, h, -⟩ := ends_next
    (step { State.reset with lastReq := pktWr, pending := [.issue (full 0x50)] }) (fun _ => true)
    (by decide +kernel)
  exact ⟨t, h⟩

/-- Two engines, each with an operation pending. -/
theorem witness_EnginesShareNothing :
    ∃ sys sys1 sys2 : System, ∃ s, (0 : Nat) ≠ 1 ∧ sys[1]? = some s
      ∧ systemStep 0 sys = .next sys1 ∧ systemStep 1 sys1 = .next sys2 :=
  ⟨[{ State.reset with pending := [.issue (Ports.ofOp 0x10)] },
    { State.reset with pending := [.issue (Ports.ofOp 0x01)] }], _, _, _, by decide, rfl, rfl, rfl⟩

end Sys2Proof.Tests
end

section
/-! SUPPORT. The bytes of an encoded number, and MemRead and MemWrite byte by byte (R15, R52). -/

namespace Sys2Proof.Machine

/-- Byte `k` of `enc_be(v, n)` (R15). -/
theorem encBe_getElem? (n v k : Nat) (h : k < n) :
    (encBe n v)[k]? = some (BitVec.ofNat 8 (v / 256 ^ (n - 1 - k))) := by
  induction n generalizing k with
  | zero => omega
  | succ n ih =>
    rw [encBe_succ]
    cases k with
    | zero => simp
    | succ k =>
      rw [List.getElem?_cons_succ, ih k (by omega)]
      congr 4
      omega

/-- A base-256 digit of a word is eight of its bits. -/
theorem ofNat_digit_eq_extractLsb' {w : Nat} (v : BitVec w) (j : Nat) :
    BitVec.ofNat 8 (v.toNat / 256 ^ j) = v.extractLsb' (8 * j) 8 := by
  apply BitVec.eq_of_toNat_eq
  rw [BitVec.toNat_ofNat, BitVec.extractLsb'_toNat, Nat.shiftRight_eq_div_pow, Nat.pow_mul]

theorem encBe_toNat_getElem? {w : Nat} (v : BitVec w) (n k : Nat) (h : k < n) :
    (encBe n v.toNat)[k]? = some (v.extractLsb' (8 * (n - 1 - k)) 8) := by
  rw [encBe_getElem? n _ k h, ofNat_digit_eq_extractLsb']

theorem enc16_eq_pair (v : BitVec 16) : enc16 v = [v.extractLsb' 8 8, v.extractLsb' 0 8] := by
  have hhi := ofNat_digit_eq_extractLsb' v 1
  have hlo := ofNat_digit_eq_extractLsb' v 0
  rw [enc16, encBe_succ, encBe_succ, encBe_zero, hhi, hlo]

theorem extractLsb'_high_ofNat (m : Nat) :
    (BitVec.ofNat 16 m).extractLsb' 8 8 = BitVec.ofNat 8 (m / 256) := by
  apply BitVec.eq_of_toNat_eq
  simp only [BitVec.extractLsb'_toNat, BitVec.toNat_ofNat, Nat.shiftRight_eq_div_pow]
  omega

theorem extractLsb'_low_ofNat (m : Nat) :
    (BitVec.ofNat 16 m).extractLsb' 0 8 = BitVec.ofNat 8 m := by
  apply BitVec.eq_of_toNat_eq
  simp only [BitVec.extractLsb'_toNat, BitVec.toNat_ofNat, Nat.shiftRight_zero]
  omega

/-- A word of `8 n` bits fits `n` bytes. -/
theorem toNat_lt_pow256 {n : Nat} (v : BitVec (8 * n)) : v.toNat < 256 ^ n := by
  have h := v.isLt
  rwa [Nat.pow_mul] at h

/-- A slice of positive length is its first byte and the slice after it. -/
theorem slice_succ (b : Bytes) (off n : Nat) (h : off < b.length) :
    slice b off (off + (n + 1)) = b.getD off 0 :: slice b (off + 1) (off + 1 + n) := by
  simp only [slice, Nat.add_sub_cancel_left]
  rw [List.drop_eq_getElem_cons h, List.take_succ_cons, List.getD_eq_getElem b 0 h]

theorem beValue_succ (b : Bytes) (off n : Nat) :
    beValue b off (n + 1) = (b.getD off 0).toNat * 256 ^ n + beValue b (off + 1) n := by
  unfold beValue
  rw [List.range_succ_eq_map, List.map_cons, List.sum_cons, List.map_map]
  congr 2
  apply List.map_congr_left
  intro k _
  have hoff : off + k.succ = off + 1 + k := by omega
  have hexp : n + 1 - 1 - k.succ = n - 1 - k := by omega
  rw [Function.comp_apply, hoff, hexp]

/-- MemRead inside a sequence is the weighted sum of R15. -/
theorem memRead_eq_beValue (b : Bytes) (off n : Nat) (h : off + n ≤ b.length) :
    memRead b off n = beValue b off n := by
  induction n generalizing off with
  | zero => simp [memRead, slice, beValue]
  | succ n ih =>
    have hlen : (slice b (off + 1) (off + 1 + n)).length = n := by
      rw [slice_length _ _ _ (by omega)]; omega
    rw [beValue_succ, ← ih (off + 1) (by omega), memRead, slice_succ b off n (by omega),
      beNat_cons, hlen, memRead]

/-- `be16` inside a sequence is two bytes, the first the more significant (R15). -/
theorem be16_eq_append (b : Bytes) (off : Nat) (h : off + 2 ≤ b.length) :
    be16 b off = b.getD off 0 ++ b.getD (off + 1) 0 := by
  have hval : memRead b off 2 = (b.getD off 0).toNat * 256 + (b.getD (off + 1) 0).toNat := by
    rw [memRead_eq_beValue b off 2 h, beValue_succ, beValue_succ]
    simp [beValue]
  have hhi := (b.getD off 0).isLt
  have hlo := (b.getD (off + 1) 0).isLt
  apply BitVec.eq_of_toNat_eq
  rw [be16, hval, BitVec.toNat_ofNat, BitVec.toNat_append, ← Nat.shiftLeft_add_eq_or_of_lt hlo,
    Nat.shiftLeft_eq]
  omega

theorem memWrite_length (b : Bytes) (off n v : Nat) (h : off + n ≤ b.length) :
    (memWrite b off n v).length = b.length := by
  simp only [memWrite, List.length_append, List.length_take, encBe_length, List.length_drop]
  omega

theorem memRead_memWrite (b : Bytes) (off n v : Nat) (h : off + n ≤ b.length) (hv : v < 256 ^ n) :
    memRead (memWrite b off n v) off n = v := by
  have hskip := memRead_append_at (b.take off) (encBe n v ++ b.drop (off + n)) 0 n off
    (List.length_take_of_le (by omega))
  rw [memWrite, List.append_assoc]
  exact hskip.trans (memRead_encBe_append n v _ hv)

/-- MemWrite leaves every byte outside the field. -/
theorem memWrite_getElem?_outside (b : Bytes) (off n v j : Nat) (h : off + n ≤ b.length)
    (hj : j < off ∨ off + n ≤ j) : (memWrite b off n v)[j]? = b[j]? := by
  have htake : (b.take off).length = off := List.length_take_of_le (by omega)
  have hfield : (b.take off ++ encBe n v).length = off + n := by simp [htake]
  unfold memWrite
  rcases hj with hlt | hge
  · rw [List.append_assoc, List.getElem?_append_left (by omega), List.getElem?_take_of_lt hlt]
  · rw [List.getElem?_append_right (by omega), hfield, List.getElem?_drop]
    congr 1
    omega

/-- Settles O42: the rules of `enc_be`, `be16`, MemRead and MemWrite put together. -/
theorem numericRoundTrip : Obligations.NumericRoundTrip := by
  unfold Obligations.NumericRoundTrip
  intro n v
  have hread := memRead_encBe_append n v.toNat [] (toNat_lt_pow256 v)
  rw [List.append_nil] at hread
  exact ⟨encBe_length n _, encBe_toNat_getElem? v n, hread, be16_eq_append, fun b off h =>
    ⟨memRead_eq_beValue b off n h, memWrite_length b off n _ h,
      memRead_memWrite b off n _ h (toNat_lt_pow256 v),
      fun j => memWrite_getElem?_outside b off n _ j h⟩⟩

end Sys2Proof.Machine
end

section
/-! SUPPORT. The bytes of a packet, and what the decoder reads in a request (R90, R93, R94, R104). -/

namespace Sys2Proof.Machine

section Packet

variable (pre ccd scd chan w8 cmd len rid : BitVec 16) (rest : Bytes)

/-- The 16 header bytes of a packet one by one (R90). -/
theorem packetBytes_eq_header_append : packetBytes pre ccd scd chan w8 cmd len rid rest
    = [pre.extractLsb' 8 8, pre.extractLsb' 0 8, ccd.extractLsb' 8 8, ccd.extractLsb' 0 8,
        scd.extractLsb' 8 8, scd.extractLsb' 0 8, chan.extractLsb' 8 8, chan.extractLsb' 0 8,
        w8.extractLsb' 8 8, w8.extractLsb' 0 8, cmd.extractLsb' 8 8, cmd.extractLsb' 0 8,
        len.extractLsb' 8 8, len.extractLsb' 0 8, rid.extractLsb' 8 8, rid.extractLsb' 0 8]
      ++ rest := by
  simp only [packetBytes, enc16_eq_pair, List.cons_append, List.nil_append]

/-- The bytes of the preamble, the command id, the SCD length and the request id (R90). -/
theorem packetBytes_header_bytes {p : Bytes}
    (hp : p = packetBytes pre ccd scd chan w8 cmd len rid rest) :
    p[0]? = some (pre.extractLsb' 8 8) ∧ p[1]? = some (pre.extractLsb' 0 8)
    ∧ p[10]? = some (cmd.extractLsb' 8 8) ∧ p[11]? = some (cmd.extractLsb' 0 8)
    ∧ p[12]? = some (len.extractLsb' 8 8) ∧ p[13]? = some (len.extractLsb' 0 8)
    ∧ p[14]? = some (rid.extractLsb' 8 8) ∧ p[15]? = some (rid.extractLsb' 0 8) := by
  rw [hp, packetBytes_eq_header_append]
  exact ⟨rfl, rfl, rfl, rfl, rfl, rfl, rfl, rfl⟩

/-- What follows the header stands 16 bytes further on. -/
theorem packetBytes_getElem?_tail (k : Nat) :
    (packetBytes pre ccd scd chan w8 cmd len rid rest)[16 + k]? = rest[k]? := by
  rw [← List.getElem?_drop, packetBytes_drop]

theorem be16_packetBytes_tail (off : Nat) :
    be16 (packetBytes pre ccd scd chan w8 cmd len rid rest) (16 + off) = be16 rest off := by
  rw [be16, memRead_packetBytes, be16]

end Packet

/-- The decoder reads the pattern of a ReadMem request as that row (R93, R104). -/
theorem decodePacket_readRequest (ccd scd rid : BitVec 16) (rest : Bytes) :
    decodePacket (packetBytes preamble ccd scd channel flagAckReq cmdReadMem 12 rid rest)
      = .instr (.pktReadmemReq ccd scd rid rest) := by
  have hlen : ¬ 16 + rest.length < hdrBytes := by simp only [hdrBytes]; omega
  simp [decodePacket, hlen]

/-- The decoder reads the pattern of a WriteMem request as that row (R94, R104). -/
theorem decodePacket_writeRequest (ccd scd len rid : BitVec 16) (rest : Bytes) :
    decodePacket (packetBytes preamble ccd scd channel flagAckReq cmdWriteMem len rid rest)
      = .instr (.pktWritememReq ccd scd len rid rest) := by
  have hlen : ¬ 16 + rest.length < hdrBytes := by simp only [hdrBytes]; omega
  have hcmd : cmdWriteMem ≠ cmdReadMem := by decide
  simp [decodePacket, hlen, hcmd]

/-- Every request begins its SCD with the address, most significant byte first (R93, R94). -/
theorem request_address (ccd scd cmd len rid : BitVec 16) (addr : BitVec 64) (rest : Bytes) :
    (∀ k, k < 8 → (packetBytes preamble ccd scd channel flagAckReq cmd len rid
        (encBe 8 addr.toNat ++ rest))[16 + k]? = some (addr.extractLsb' (8 * (7 - k)) 8))
    ∧ memRead (packetBytes preamble ccd scd channel flagAckReq cmd len rid
        (encBe 8 addr.toNat ++ rest)) 16 8 = addr.toNat := by
  constructor
  · intro k hk
    rw [packetBytes_getElem?_tail, List.getElem?_append_left (by simpa using hk),
      encBe_toNat_getElem? addr 8 k hk]
  · rw [memRead_packetBytes _ _ _ _ _ _ _ _ _ 0 8, memRead_encBe_append 8 _ _ addr.isLt]

/-- What follows the address in the SCD of a request. -/
theorem request_getElem?_after_address (ccd scd cmd len rid : BitVec 16) (addr : BitVec 64)
    (rest : Bytes) (k : Nat) :
    (packetBytes preamble ccd scd channel flagAckReq cmd len rid
      (encBe 8 addr.toNat ++ rest))[24 + k]? = rest[k]? := by
  rw [show 24 + k = 16 + (8 + k) by omega, packetBytes_getElem?_tail,
    List.getElem?_append_right (by simp), encBe_length, Nat.add_sub_cancel_left]

theorem request_slice_after_address (ccd scd cmd len rid : BitVec 16) (addr : BitVec 64)
    (rest : Bytes) :
    slice (packetBytes preamble ccd scd channel flagAckReq cmd len rid
      (encBe 8 addr.toNat ++ rest)) 24 (24 + rest.length) = rest := by
  rw [show 24 + rest.length = 16 + (8 + rest.length) by omega,
    slice_packetBytes _ _ _ _ _ _ _ _ _ 8,
    slice_append_at _ rest 8 0 rest.length (encBe_length 8 _), slice_all]

/-- `build_read` answers the packet of R93. -/
theorem buildRead_eq_packetBytes (rid : BitVec 16) (addr : BitVec 64) (n : BitVec 16) :
    ∃ ccd scd, buildRead rid addr n = some (packetBytes preamble ccd scd channel flagAckReq
      cmdReadMem 12 rid (encBe 8 addr.toNat ++ (enc16 0 ++ enc16 n))) := by
  have hlen : (encBe 8 addr.toNat ++ (enc16 0 ++ enc16 n)).length = 12 := by simp
  rw [buildRead, List.append_assoc, frame_eq _ _ _ _ (by omega), hlen]
  exact ⟨_, _, rfl⟩

/-- What `build_write` answers is the packet of R94. -/
theorem buildWrite_eq_packetBytes (c : Config) (rid : BitVec 16) (addr : BitVec 64)
    (payload p : Bytes) (h : buildWrite c rid addr payload = some p) :
    ∃ ccd scd, p = packetBytes preamble ccd scd channel flagAckReq cmdWriteMem
      (BitVec.ofNat 16 (8 + payload.length)) rid (encBe 8 addr.toNat ++ payload) := by
  obtain ⟨hfit, -⟩ := buildWrite_length c rid addr payload p h
  rw [buildWrite_fits c rid addr payload hfit] at h
  rw [frame_eq _ _ _ _ (frame_isSome_length _ _ _ _ _ h), List.length_append, encBe_length] at h
  exact ⟨_, _, (Option.some.inj h).symm⟩

/-- The SCD length of a WriteMem request does not wrap, whatever `MAX_PAYLOAD` is (R8). -/
theorem buildWrite_length_field (c : Config) (payload : Bytes)
    (hfit : payload.length ≤ c.maxPayload.val) :
    (BitVec.ofNat 16 (8 + payload.length)).toNat = 8 + payload.length := by
  have hmax := c.maxPayload.isLt
  exact Nat.mod_eq_of_lt (by omega)

/-- The SCD of a built ReadMem request is 12 bytes with a zero reserved word (R93). -/
theorem readReqWellFormed_built (addr : BitVec 64) (n : BitVec 16) :
    readReqWellFormed (encBe 8 addr.toNat ++ (enc16 0 ++ enc16 n)) = true := by
  have hreserved : be16 (encBe 8 addr.toNat ++ (enc16 0 ++ enc16 n)) 8 = 0 :=
    (be16_append_at _ _ 0 8 (encBe_length 8 _)).trans (be16_enc16_append 0 _)
  rw [readReqWellFormed, hreserved]
  simp

/-- Settles O30, from the header bytes, the address and the four bytes after it. -/
theorem readRequestLayout : Obligations.ReadRequestLayout := by
  unfold Obligations.ReadRequestLayout
  intro rid addr cnt
  obtain ⟨ccd, scd, hbuild⟩ := buildRead_eq_packetBytes rid addr cnt
  obtain ⟨h0, h1, h10, h11, -, -, h14, h15⟩ := packetBytes_header_bytes preamble ccd scd channel
    flagAckReq cmdReadMem 12 rid (encBe 8 addr.toNat ++ (enc16 0 ++ enc16 cnt)) rfl
  obtain ⟨haddr, hread⟩ := request_address ccd scd cmdReadMem 12 rid addr (enc16 0 ++ enc16 cnt)
  have hafter := request_getElem?_after_address ccd scd cmdReadMem 12 rid addr
    (enc16 0 ++ enc16 cnt)
  have htail : enc16 0 ++ enc16 cnt = [0, 0, cnt.extractLsb' 8 8, cnt.extractLsb' 0 8] := by
    rw [enc16_eq_pair, enc16_eq_pair]; rfl
  have hscd (off : Nat) : be16 (encBe 8 addr.toNat ++ (enc16 0 ++ enc16 cnt)) (8 + off)
      = be16 (enc16 0 ++ enc16 cnt) off := be16_append_at _ _ off 8 (encBe_length 8 _)
  refine ⟨_, hbuild, by simp, pktCommand_packetBytes .., pktLen_packetBytes .., h0, h1, h10, h11,
    h14, h15, haddr, (hafter 0).trans (congrArg (·[0]?) htail),
    (hafter 1).trans (congrArg (·[1]?) htail), (hafter 2).trans (congrArg (·[2]?) htail),
    (hafter 3).trans (congrArg (·[3]?) htail), hread, ?_, ?_,
    ccd, scd, _, decodePacket_readRequest .., readReqWellFormed_built addr cnt⟩
  · rw [be16_packetBytes_tail _ _ _ _ _ _ _ _ _ 8, hscd 0]
    exact be16_enc16_append 0 _
  · rw [be16_packetBytes_tail _ _ _ _ _ _ _ _ _ 10, hscd 2, be16_skip 0 _ 0,
      ← List.append_nil (enc16 cnt), be16_enc16_append]

/-- Settles O31, from the header bytes, the address and the payload after it. -/
theorem writeRequestLayout : Obligations.WriteRequestLayout := by
  unfold Obligations.WriteRequestLayout
  intro c rid addr payload p h
  obtain ⟨hfit, hlen⟩ := buildWrite_length c rid addr payload p h
  have hmax := (stored_packet_fits c 0 rid addr 0 [] payload p (.inr (.inl h))).2
  have hfield := buildWrite_length_field c payload hfit
  obtain ⟨ccd, scd, rfl⟩ := buildWrite_eq_packetBytes c rid addr payload p h
  obtain ⟨h0, h1, h10, h11, h12, h13, h14, h15⟩ := packetBytes_header_bytes preamble ccd scd
    channel flagAckReq cmdWriteMem (BitVec.ofNat 16 (8 + payload.length)) rid
    (encBe 8 addr.toNat ++ payload) rfl
  rw [extractLsb'_high_ofNat] at h12
  rw [extractLsb'_low_ofNat] at h13
  obtain ⟨haddr, hread⟩ := request_address ccd scd cmdWriteMem
    (BitVec.ofNat 16 (8 + payload.length)) rid addr payload
  refine ⟨hfit, hlen, by omega, hmax, pktCommand_packetBytes .., ?_, h0, h1, h10, h11, h12,
    h13, h14, h15, haddr, request_getElem?_after_address _ _ _ _ _ _ _, hread, ?_,
    ccd, scd, _, _, decodePacket_writeRequest .., ?_⟩
  · exact (congrArg BitVec.toNat (pktLen_packetBytes ..)).trans hfield
  · rw [hlen, request_slice_after_address]
  · simp only [Instr.wellFormed, writeReqWellFormed, hfield]
    simp

end Sys2Proof.Machine
end

section
/-! SUPPORT. An acceptable acknowledgement passes validation, and an extraction reads its payload
(R161, R181, R182). -/

namespace Sys2Proof.Machine

/-- A packet that meets every check of R161 passes. -/
theorem validate_of_acceptable (c : Config) (pkt : Bytes) (exp : BitVec 16) (isRead : Bool)
    (hack : AcceptableAck c (ackCommand isRead) pkt) (hrid : isRead = true → be16 pkt 14 = exp) :
    validate c pkt exp isRead = .pass (warnFlag isRead pkt exp) := by
  obtain ⟨(hhdr : hdrBytes ≤ pkt.length), (hpre : pktPreamble pkt = preamble),
    (hccd : checksum16 (ccdRange pkt) = some (pktCcd pkt)),
    (hlen : 16 + (pktLen pkt).toNat ≤ pkt.length),
    (hscd : checksum16 (scdRange pkt) = some (pktScd pkt)),
    (hcmd : pktCommand pkt = ackCommand isRead), (hmax : (pktLen pkt).toNat ≤ c.maxPayload.val),
    (hstatus : stError (pktWord8 pkt) = false)⟩ := hack
  unfold validate
  rw [if_neg (Nat.not_lt.mpr hhdr), if_neg (not_not.mpr hpre),
    if_neg (fun ⟨hr, hne⟩ => hne (hrid hr))]
  dsimp only
  rw [if_neg (not_not.mpr hccd), if_neg (Nat.not_lt.mpr hlen), if_neg (not_not.mpr hscd),
    if_neg (not_not.mpr hcmd), if_neg (Nat.not_lt.mpr hmax), if_neg (ne_true_of_eq_false hstatus)]

/-- The two results of a scalar extraction from an acceptable acknowledgement (R182). -/
theorem extractScalar_of_acceptable (c : Config) (pkt : Bytes) (exp : BitVec 16) (w : Nat)
    (hack : AcceptableAck c cmdReadMemAck pkt) (hrid : be16 pkt 14 = exp) :
    extractScalar c pkt exp w = if (be16 pkt 12).toNat < w then portsErr 2 exp 8
      else portsVal (BitVec.ofNat 64 (memRead pkt 16 w)) := by
  unfold extractScalar
  rw [validate_of_acceptable c pkt exp true hack (fun _ => hrid)]
  rfl

/-- VAL.* and EXT.* on a packet within `RX_MAX` (R160, R167). -/
theorem inspect_of_fits (s : State) (pkt : Bytes) (r : ResultPorts)
    (h : pkt.length ≤ rxMax s.cfg) : inspect s pkt r = .next { s with out := r } := by
  rw [inspect, if_neg (Nat.not_lt.mpr h)]
  rfl

/-- The common form of the scalar extractions meets R181 and R182 at every width. -/
theorem extractsScalar_of_inspect (i : Instr) (pkt : Bytes) (rid : BitVec 16) (w : Nat)
    (hexec : ∀ s, exec i s = inspect s pkt (extractScalar s.cfg pkt rid w)) :
    ExtractsScalar i pkt rid w := by
  intro s hfits hack hrid
  rw [hexec, inspect_of_fits s pkt _ hfits, extractScalar_of_acceptable s.cfg pkt rid w hack hrid]
  obtain ⟨-, -, -, hlen, -⟩ := hack
  constructor
  · intro hw
    rw [if_neg (Nat.not_lt.mpr hw), memRead_eq_beValue pkt 16 w (by omega)]
  · intro hw
    rw [if_pos hw]

/-- Settles O39: all five are the common form, at their own width. -/
theorem scalarExtractDelivers : Obligations.ScalarExtractDelivers := by
  unfold Obligations.ScalarExtractDelivers
  intro pkt rid
  exact ⟨extractsScalar_of_inspect _ pkt rid 2 fun _ => rfl,
    extractsScalar_of_inspect _ pkt rid 4 fun _ => rfl,
    extractsScalar_of_inspect _ pkt rid 8 fun _ => rfl,
    extractsScalar_of_inspect _ pkt rid 4 fun _ => rfl,
    extractsScalar_of_inspect _ pkt rid 8 fun _ => rfl⟩

end Sys2Proof.Machine
end

section
/-! SUPPORT. The reset values (R36) and the domain of the checksum (R121). -/

namespace Sys2Proof.Machine

/-- Settles O10: each register is a field of `State.resetOf`. -/
theorem resetValues : Obligations.ResetValues := by
  unfold Obligations.ResetValues
  exact ⟨fun _ => ⟨rfl, rfl, rfl, rfl, rfl, rfl, rfl, rfl, rfl⟩, rfl⟩

/-- Settles O15, by the two sides of the length bound. -/
theorem checksumDefinedUpToMaxlen : Obligations.ChecksumDefinedUpToMaxlen := by
  unfold Obligations.ChecksumDefinedUpToMaxlen
  intro b
  rcases Nat.lt_or_ge 65534 b.length with hlong | hshort
  · simp [checksum16_none b hlong, Nat.not_le.mpr hlong]
  · simp [checksum16_some b hshort, hshort]

end Sys2Proof.Machine
end

section
/-! SUPPORT. A packet that a build or an issue stores is a request packet of legal length (R59, R151). -/

namespace Sys2Proof.Machine

/-- Every framed packet that asks for an acknowledgement is a request packet of its id (R142, R151). -/
theorem requestPacket_of_frame (cmd rid : BitVec 16) (scd p : Bytes)
    (h : frame flagAckReq cmd rid scd = some p) : RequestPacket p rid := by
  have hlen := frame_isSome_length _ _ _ _ _ h
  rw [frame_eq _ _ _ _ hlen] at h
  obtain rfl := Option.some.inj h
  have hfield : (BitVec.ofNat 16 scd.length).toNat = scd.length := Nat.mod_eq_of_lt (by omega)
  refine ⟨pktPreamble_packetBytes .., pktChannel_packetBytes .., pktWord8_packetBytes .., ?_,
    pktRid_packetBytes .., ?_, ?_⟩
  · rw [show be16 _ 12 = BitVec.ofNat 16 scd.length from pktLen_packetBytes .., hfield,
      packetBytes_length, Nat.add_comm]
  · rw [slice_from_six _ _ _ _ _ _ _ _ _ 0, List.take_zero, List.append_nil]
    exact (checksum16_some _ (by simp)).trans (congrArg some (pktCcd_packetBytes ..).symm)
  · rw [packetBytes_length, slice_from_six, List.take_length]
    exact (checksum16_some _ (by simp; omega)).trans (congrArg some (pktScd_packetBytes ..).symm)

/-- What is known of a packet that a build or an issue stores as `LASTREQ`. -/
structure StoredRequest (c : Config) (rid : BitVec 16) (p : Bytes) : Prop where
  request : RequestPacket p rid
  minLen  : 24 ≤ p.length
  fits    : p.length ≤ pktMax c

theorem storedRequest_of_buildRead {c : Config} {rid : BitVec 16} {addr : BitVec 64}
    {n : BitVec 16} {p : Bytes} (h : buildRead rid addr n = some p) : StoredRequest c rid p := by
  obtain ⟨hmin, hmax⟩ := stored_packet_fits c 0 rid addr n [] [] p (.inl h)
  exact ⟨requestPacket_of_frame _ _ _ _ h, hmin, hmax⟩

theorem storedRequest_of_buildWrite {c : Config} {rid : BitVec 16} {addr : BitVec 64}
    {payload p : Bytes} (h : buildWrite c rid addr payload = some p) : StoredRequest c rid p := by
  obtain ⟨hmin, hmax⟩ := stored_packet_fits c 0 rid addr 0 [] payload p (.inr (.inl h))
  obtain ⟨hfit, -⟩ := buildWrite_length _ _ _ _ _ h
  rw [buildWrite_fits _ _ _ _ hfit] at h
  exact ⟨requestPacket_of_frame _ _ _ _ h, hmin, hmax⟩

theorem storedRequest_of_buildWriteDin {c : Config} {draw : Nat} {rid : BitVec 16}
    {addr : BitVec 64} {cnt : BitVec 16} {din p : Bytes}
    (h : buildWriteDin c draw rid addr cnt din = some p) : StoredRequest c rid p :=
  storedRequest_of_buildWrite (buildWriteDin_eq c draw rid addr cnt din ▸ h)

end Sys2Proof.Machine
end

section
/-! SUPPORT. What every instruction can do to a state, said once: the common form of each family, and
the list of effects that the frame and invariant statements split over. -/

namespace Sys2Proof.Machine

/-- BLD.* is `build` of a request packet with the operand `rid` (R140, R141). -/
theorem exec_of_build (i : Instr) (s : State) (hf : family i = .build) :
    ∃ rid packet, exec i s = build s rid packet
      ∧ ∀ p, packet = some p → StoredRequest s.cfg rid p := by
  match i, hf with
  | .bldRd rid _ _, _ => exact ⟨rid, _, rfl, fun _ => storedRequest_of_buildRead⟩
  | .bldWrB rid _ _ _, _ => exact ⟨rid, _, rfl, fun _ => storedRequest_of_buildWriteDin⟩
  | .bldWrU16 rid _ _, _ => exact ⟨rid, _, rfl, fun _ => storedRequest_of_buildWrite⟩
  | .bldWrU32 rid _ _, _ => exact ⟨rid, _, rfl, fun _ => storedRequest_of_buildWrite⟩
  | .bldWrU64 rid _ _, _ => exact ⟨rid, _, rfl, fun _ => storedRequest_of_buildWrite⟩
  | .bldWrF32 rid _ _, _ => exact ⟨rid, _, rfl, fun _ => storedRequest_of_buildWrite⟩
  | .bldWrF64 rid _ _, _ => exact ⟨rid, _, rfl, fun _ => storedRequest_of_buildWrite⟩

/-- SQ.RD.* and SQ.WR.* are `issue` of a request packet with the id it is given, and record an
expectation (R201, R203 to R214). -/
theorem exec_of_issue (i : Instr) (s : State) (hf : isIssue i = true) :
    ∃ packet e, exec i s = issue s packet e ∧ e.kind ≠ .none
      ∧ ∀ rid p, packet rid = some p → StoredRequest s.cfg rid p := by
  have hread (addr n) : ∀ rid p, buildRead rid addr n = some p → StoredRequest s.cfg rid p :=
    fun _ _ => storedRequest_of_buildRead
  have hwrite (addr payload) :
      ∀ rid p, buildWrite s.cfg rid addr payload = some p → StoredRequest s.cfg rid p :=
    fun _ _ => storedRequest_of_buildWrite
  match i, hf with
  | .sqRdB _ _, _ => exact ⟨_, _, rfl, by nofun, hread _ _⟩
  | .sqRdU16 _, _ => exact ⟨_, _, rfl, by nofun, hread _ _⟩
  | .sqRdU32 _, _ => exact ⟨_, _, rfl, by nofun, hread _ _⟩
  | .sqRdU64 _, _ => exact ⟨_, _, rfl, by nofun, hread _ _⟩
  | .sqRdF32 _, _ => exact ⟨_, _, rfl, by nofun, hread _ _⟩
  | .sqRdF64 _, _ => exact ⟨_, _, rfl, by nofun, hread _ _⟩
  | .sqWrB _ _ _, _ => exact ⟨_, _, rfl, by nofun, fun _ _ => storedRequest_of_buildWriteDin⟩
  | .sqWrU16 _ _, _ => exact ⟨_, _, rfl, by nofun, hwrite _ _⟩
  | .sqWrU32 _ _, _ => exact ⟨_, _, rfl, by nofun, hwrite _ _⟩
  | .sqWrU64 _ _, _ => exact ⟨_, _, rfl, by nofun, hwrite _ _⟩
  | .sqWrF32 _ _, _ => exact ⟨_, _, rfl, by nofun, hwrite _ _⟩
  | .sqWrF64 _ _, _ => exact ⟨_, _, rfl, by nofun, hwrite _ _⟩

/-- The three outcomes of an issue (R200, R201, R217). -/
theorem exec_issue_cases {i : Instr} {s t : State} (hi : isIssue i = true)
    (h : exec i s = .next t) :
    (s.busy = true ∧ t = s.respond (refusedResult .busy))
    ∨ (s.busy = false ∧ t = s.bumpId.respond (errIssue (nextId s)))
    ∨ ∃ p e, s.busy = false ∧ StoredRequest s.cfg (nextId s) p ∧ e.kind ≠ .none
        ∧ t = (s.bumpId.openRequest p e).respond (okIssue p (nextId s) (drainFlag s.rsync)) := by
  obtain ⟨packet, e, hexec, hkind, hpacket⟩ := exec_of_issue i s hi
  obtain hrefused | ⟨hbusy, -, ht⟩ | ⟨p, hbusy, hp, ht⟩ := issue_cases s t packet e (hexec ▸ h)
  · exact .inl hrefused
  · exact .inr (.inl ⟨hbusy, ht⟩)
  · exact .inr (.inr ⟨p, e, hbusy, hpacket _ p hp, hkind, ht⟩)

/-- VAL.* and EXT.* are `inspect` (R160, R167). -/
theorem exec_of_codec (i : Instr) (s : State) (hf : family i = .validate ∨ family i = .extract) :
    ∃ pkt r, exec i s = inspect s pkt r := by
  match i, hf with
  | .valRd _ _, _ => exact ⟨_, _, rfl⟩
  | .valWr _ _, _ => exact ⟨_, _, rfl⟩
  | .extB _ _ _, _ => exact ⟨_, _, rfl⟩
  | .extU16 _ _, _ => exact ⟨_, _, rfl⟩
  | .extU32 _ _, _ => exact ⟨_, _, rfl⟩
  | .extU64 _ _, _ => exact ⟨_, _, rfl⟩
  | .extF32 _ _, _ => exact ⟨_, _, rfl⟩
  | .extF64 _ _, _ => exact ⟨_, _, rfl⟩

/-- A packet row is an arrival (R50, log 1). -/
theorem exec_of_packet (i : Instr) (s : State) (hf : family i = .packet) :
    ∃ b, exec i s = .next (s.present b) := by
  match i, hf with
  | .pktReadmemReq _ _ _ _, _ => exact ⟨_, rfl⟩
  | .pktWritememReq _ _ _ _ _, _ => exact ⟨_, rfl⟩
  | .pktReadmemAck _ _ _ _ _ _ _, _ => exact ⟨_, rfl⟩
  | .pktWritememAck _ _ _ _ _ _ _, _ => exact ⟨_, rfl⟩
  | .pktPendingAck _ _ _ _ _ _ _, _ => exact ⟨_, rfl⟩

/-- What an instruction that answers a next state has done to the state: one constructor for each way
in which registers change, each with the facts that it rests on. -/
inductive Effect (s : State) : Instr → State → Prop where
  /-- SRST (R230). -/
  | resets : Effect s .srst (s.resetRegisters.respond okResult)
  /-- WRTMO (R231). -/
  | setsTmo (v : BitVec 32) : Effect s (.wrtmo v) (({ s with tmo := v } : State).respond okResult)
  /-- CS.CLR (R125). -/
  | clearsCs : Effect s .csClr (s.clearCs.respond okResult)
  /-- CS.PUT that is not refused (R126). -/
  | putsByte (x : Byte) (hcnt : s.csCnt.toNat ≠ csMaxLen) :
    Effect s (.csPut x) ((s.putCs x).respond okResult)
  /-- A result and no register, which of an issue is a refusal. -/
  | answers (i : Instr) (r : ResultPorts)
    (hissue : isIssue i = true → s.busy = true ∧ r = refusedResult .busy) : Effect s i (s.respond r)
  /-- A packet row (log 1). -/
  | arrives (i : Instr) (b : Bytes) (hf : family i = .packet) : Effect s i (s.present b)
  /-- A build that succeeds (R141). -/
  | stores (i : Instr) (rid : BitVec 16) (p : Bytes) (hf : family i = .build)
    (hbusy : s.busy = false) (hp : StoredRequest s.cfg rid p) :
    Effect s i ((s.storeReq p).respond (okTx p))
  /-- An issue that fails (R217). -/
  | consumesId (i : Instr) (hf : isIssue i = true) (hbusy : s.busy = false) :
    Effect s i (s.bumpId.respond (errIssue (nextId s)))
  /-- An issue that succeeds (R201, R202). -/
  | opens (i : Instr) (p : Bytes) (e : Expect) (hf : isIssue i = true) (hbusy : s.busy = false)
    (hp : StoredRequest s.cfg (nextId s) p) (hkind : e.kind ≠ .none) :
    Effect s i ((s.bumpId.openRequest p e).respond (okIssue p (nextId s) (drainFlag s.rsync)))
  /-- A completion that owes a drain (R248). -/
  | fails (i : Instr) (r : ResultPorts) (hf : family i = .complete) (hbusy : s.busy = true) :
    Effect s i (s.failEntry.respond r)
  /-- A completion that owes none (R215, R216). -/
  | closes (i : Instr) (r : ResultPorts) (hf : family i = .complete) (hbusy : s.busy = true) :
    Effect s i (s.closeRequest.respond r)

theorem isIssue_eq_false_of_family {i : Instr} {f : Family} (hf : family i = f)
    (hread : f ≠ .issueRead) (hwrite : f ≠ .issueWrite) : isIssue i = false := by
  simp [isIssue, hf, hread, hwrite]

/-- A result on the ports alone, of an instruction that is no issue. -/
theorem effect_answers {s t : State} {i : Instr} {r : ResultPorts} (hi : isIssue i = false)
    (ht : t = s.respond r) : Effect s i t :=
  ht ▸ .answers i r fun h => by simp [hi] at h

theorem effect_of_build {s t : State} {i : Instr} (hf : family i = .build)
    (h : exec i s = .next t) : Effect s i t := by
  obtain ⟨rid, packet, hexec, hpacket⟩ := exec_of_build i s hf
  have hi : isIssue i = false := isIssue_eq_false_of_family hf nofun nofun
  obtain ⟨-, ht⟩ | ⟨-, -, ht⟩ | ⟨p, hbusy, hp, rfl⟩ := build_cases s t rid packet (hexec ▸ h)
  · exact effect_answers hi ht
  · exact effect_answers hi ht
  · exact .stores i rid p hf hbusy (hpacket p hp)

theorem effect_of_issue {s t : State} {i : Instr} (hf : isIssue i = true)
    (h : exec i s = .next t) : Effect s i t := by
  obtain ⟨hbusy, rfl⟩ | ⟨hbusy, rfl⟩ | ⟨p, e, hbusy, hp, hkind, rfl⟩ := exec_issue_cases hf h
  · exact .answers i _ fun _ => ⟨hbusy, rfl⟩
  · exact .consumesId i hf hbusy
  · exact .opens i p e hf hbusy hp hkind

theorem effect_of_codec {s t : State} {i : Instr}
    (hf : family i = .validate ∨ family i = .extract) (h : exec i s = .next t) : Effect s i t := by
  obtain ⟨pkt, r, hexec⟩ := exec_of_codec i s hf
  have hi : isIssue i = false := by rcases hf with hf | hf <;> simp [isIssue, hf]
  obtain ⟨-, ht⟩ | ⟨-, ht⟩ := inspect_cases s t pkt r (hexec ▸ h)
  · exact effect_answers hi ht
  · exact effect_answers hi ht

/-- A timeout, of SQ.TMO or of SQ.ACK with the empty packet (R215, R216). -/
theorem effect_of_timeout {s t : State} {i : Instr} (hf : family i = .complete)
    (h : timeout s = .next t) : Effect s i t := by
  obtain ⟨-, ht⟩ | ⟨hbusy, rfl⟩ := timeout_cases s t h
  · exact effect_answers (isIssue_eq_false_of_family hf nofun nofun) ht
  · unfold State.timeoutEntry
    split
    · exact .closes i _ hf hbusy
    · exact .fails i _ hf hbusy

theorem effect_of_acknowledge {s t : State} {pkt : Bytes} {cap : BitVec 16}
    (h : acknowledge s pkt cap = .next t) : Effect s (.sqAck pkt cap) t := by
  obtain ⟨-, ht⟩ | ⟨-, -, ht⟩ | ⟨-, -, htmo⟩ | ⟨r, hbusy, -, -, -, hdone⟩ :=
    acknowledge_cases s t pkt cap h
  · exact effect_answers rfl ht
  · exact effect_answers rfl ht
  · exact effect_of_timeout rfl htmo
  · obtain ⟨-, rfl⟩ | ⟨-, rfl⟩ := complete_cases s t r hdone
    · exact .fails _ r rfl hbusy
    · exact .closes _ r rfl hbusy

theorem effect_of_csPut {s t : State} {x : Byte} (h : execCsPut x s = .next t) :
    Effect s (.csPut x) t := by
  unfold execCsPut at h
  split at h
  · exact effect_answers rfl ((refuse_next s t _).mp h)
  · next hcnt =>
    obtain rfl := (done_next _ t _).mp h
    exact .putsByte x hcnt

/-- Every next state that `exec` answers is one of the effects. -/
theorem exec_effect {i : Instr} {s t : State} (h : exec i s = .next t) : Effect s i t := by
  cases hf : family i with
  | control =>
    match i, hf with
    | .srst, _ => obtain rfl := (done_next _ t _).mp h; exact .resets
    | .wrtmo v, _ => obtain rfl := (done_next _ t _).mp h; exact .setsTmo v
    | .rdst, _ => exact effect_answers rfl ((done_next s t _).mp h)
  | checksum =>
    match i, hf with
    | .csClr, _ => obtain rfl := (done_next _ t _).mp h; exact .clearsCs
    | .csPut x, _ => exact effect_of_csPut h
    | .csGet, _ => exact effect_answers rfl ((done_next s t _).mp h)
  | build => exact effect_of_build hf h
  | validate => exact effect_of_codec (.inl hf) h
  | extract => exact effect_of_codec (.inr hf) h
  | issueRead => exact effect_of_issue (by simp [isIssue, hf]) h
  | issueWrite => exact effect_of_issue (by simp [isIssue, hf]) h
  | complete =>
    match i, hf with
    | .sqAck _ _, _ => exact effect_of_acknowledge h
    | .sqTmo, hf => exact effect_of_timeout hf h
  | packet =>
    obtain ⟨b, hexec⟩ := exec_of_packet i s hf
    obtain rfl := Host.Outcome.next.inj (hexec.symm.trans h)
    exact .arrives i b hf

end Sys2Proof.Machine
end

section
/-! SUPPORT. What CS.PUT does to the checksum registers, as numbers, and what a run of CS.PUT leaves in
them (R31, R126). -/

namespace Sys2Proof.Machine

/-- What the byte at place `n` counts in the accumulator (R31). -/
def placeValue (n : Nat) (x : Byte) : Nat := if n % 2 = 0 then x.toNat * 256 else x.toNat

/-- The sum of R31 for bytes that stand at the places from `n` on. -/
def placeSumFrom (n : Nat) (b : Bytes) : Nat :=
  ((b.zipIdx n).map fun x => placeValue x.2 x.1).sum

theorem placeSum_eq_placeSumFrom (b : Bytes) : placeSum b = placeSumFrom 0 b := rfl

@[simp] theorem placeSumFrom_nil (n : Nat) : placeSumFrom n [] = 0 := rfl

theorem placeSumFrom_cons (n : Nat) (x : Byte) (b : Bytes) :
    placeSumFrom n (x :: b) = placeValue n x + placeSumFrom (n + 1) b := by
  simp [placeSumFrom, List.zipIdx_cons]

/-- From an even place on, the sum of R31 is the sum of the 16-bit words (R120). -/
theorem placeSumFrom_eq_sumWords (b : Bytes) (n : Nat) (hn : n % 2 = 0) :
    placeSumFrom n b = sumWords b := by
  induction b using sumWords.induct generalizing n with
  | case1 => rfl
  | case2 x => simp [placeSumFrom_cons, placeValue, hn]
  | case3 x y rest ih =>
    have hodd : (n + 1) % 2 ≠ 0 := by omega
    rw [placeSumFrom_cons, placeSumFrom_cons, ih (n + 1 + 1) (by omega), sumWords_cons, placeValue,
      placeValue, if_pos hn, if_neg hodd, Nat.add_assoc]

theorem placeSum_eq_sumWords (b : Bytes) : placeSum b = sumWords b :=
  placeSumFrom_eq_sumWords b 0 rfl

/-- CS.PUT adds what the byte counts at its place, `CS.ODD` being the parity of the place. -/
theorem putAddend_parity (n : Nat) (x : Byte) :
    putAddend (decide (n % 2 = 1)) x = BitVec.ofNat 32 (placeValue n x) := by
  have hx := x.isLt
  rcases Nat.mod_two_eq_zero_or_one n with hn | hn
  · apply BitVec.eq_of_toNat_eq
    simp [putAddend, placeValue, hn, Nat.shiftLeft_eq]
  · apply BitVec.eq_of_toNat_eq
    simp [putAddend, placeValue, hn]

theorem oddNext_parity (n : Nat) : oddNext (decide (n % 2 = 1)) = decide ((n + 1) % 2 = 1) := by
  rcases Nat.mod_two_eq_zero_or_one n with hn | hn <;> simp [oddNext, Nat.add_mod, hn]

/-- `CS.CNT` does not wrap below its bound. -/
theorem csCnt_succ_toNat (c : BitVec 16) (h : c.toNat < 65534) : (c + 1).toNat = c.toNat + 1 := by
  bv_omega

/-- CS.PUT below the bound of R126. -/
theorem exec_csPut_of_lt (x : Byte) (s : State) (h : s.csCnt.toNat < 65534) :
    exec (.csPut x) s = .next ((s.putCs x).respond okResult) :=
  if_neg (Nat.ne_of_lt h)

/-- The state after bytes have been put in at the places from `CS.CNT` on. -/
def State.afterPuts (s : State) (b : Bytes) (r : ResultPorts) : State :=
  { s with
    csAcc := s.csAcc + BitVec.ofNat 32 (placeSumFrom s.csCnt.toNat b)
    csOdd := decide ((s.csCnt.toNat + b.length) % 2 = 1)
    csCnt := s.csCnt + BitVec.ofNat 16 b.length, out := r }

/-- The first of several bytes put in, and then the others. -/
theorem State.afterPuts_putCs (s : State) (x : Byte) (b : Bytes) (r : ResultPorts)
    (hcnt : s.csCnt.toNat < 65534) (hodd : s.csOdd = decide (s.csCnt.toNat % 2 = 1)) :
    ((s.putCs x).respond okResult).afterPuts b r = s.afterPuts (x :: b) r := by
  have hsucc := csCnt_succ_toNat s.csCnt hcnt
  have hacc : s.csAcc + putAddend s.csOdd x + BitVec.ofNat 32 (placeSumFrom (s.csCnt.toNat + 1) b)
      = s.csAcc + BitVec.ofNat 32 (placeSumFrom s.csCnt.toNat (x :: b)) := by
    rw [hodd, putAddend_parity, placeSumFrom_cons, BitVec.ofNat_add, BitVec.add_assoc]
  have hlen : s.csCnt + 1 + BitVec.ofNat 16 b.length
      = s.csCnt + BitVec.ofNat 16 (b.length + 1) := by
    rw [Nat.add_comm b.length 1, BitVec.ofNat_add, BitVec.add_assoc]
    rfl
  simp only [State.afterPuts, State.respond_csAcc, State.respond_csCnt, State.putCs_csAcc,
    State.putCs_csCnt, hsucc, hacc, hlen, List.length_cons, Nat.add_assoc, Nat.add_comm 1]
  rfl

/-- One CS.PUT per byte, as long as none is refused (R31). -/
theorem execAll_csPuts (b : Bytes) (s : State) (hlen : s.csCnt.toNat + b.length ≤ 65534)
    (hodd : s.csOdd = decide (s.csCnt.toNat % 2 = 1)) :
    ∃ r, execAll (csPuts b) s = .next (s.afterPuts b r) := by
  induction b generalizing s with
  | nil =>
    refine ⟨s.out, ?_⟩
    simp [csPuts, execAll, State.afterPuts, ← hodd]
  | cons x b ih =>
    rw [List.length_cons] at hlen
    have hcnt : s.csCnt.toNat < 65534 := by omega
    have hsucc := csCnt_succ_toNat s.csCnt hcnt
    obtain ⟨r, hr⟩ := ih ((s.putCs x).respond okResult)
      (by rw [State.respond_csCnt, State.putCs_csCnt, hsucc]; omega)
      (by rw [State.respond_csOdd, State.respond_csCnt, State.putCs_csOdd, State.putCs_csCnt, hsucc,
        hodd, oddNext_parity])
    refine ⟨r, ?_⟩
    rw [← State.afterPuts_putCs s x b r hcnt hodd, ← hr]
    change execAll (.csPut x :: csPuts b) s = _
    rw [execAll, exec_csPut_of_lt x s hcnt]

/-- CS.CLR and then one CS.PUT per byte: everything but the checksum registers stays (R31). -/
theorem execAll_csClr_csPuts (b : Bytes) (s : State) (hlen : b.length ≤ 65534) :
    ∃ r, execAll (.csClr :: csPuts b) s = .next { s with
      csAcc := BitVec.ofNat 32 (placeSum b), csOdd := decide (b.length % 2 = 1)
      csCnt := BitVec.ofNat 16 b.length, out := r } := by
  obtain ⟨r, hr⟩ := execAll_csPuts b (s.clearCs.respond okResult) (by simpa using hlen) rfl
  refine ⟨r, hr.trans ?_⟩
  simp only [State.afterPuts, State.respond_csAcc, State.respond_csCnt, State.clearCs_csAcc,
    State.clearCs_csCnt, BitVec.ofNat_eq_ofNat, BitVec.zero_add, BitVec.toNat_zero, Nat.zero_add,
    placeSum_eq_placeSumFrom]
  rfl

/-- Settles O22, by the induction over the bytes and the bound on their sum. -/
theorem csRegistersAfterPuts : Obligations.CsRegistersAfterPuts := by
  unfold Obligations.CsRegistersAfterPuts
  intro s b hlen
  have hsum : placeSum b < 2 ^ 31 := placeSum_eq_sumWords b ▸ sumWords_lt b hlen
  obtain ⟨r, hr⟩ := execAll_csClr_csPuts b s hlen
  exact ⟨hsum, _, hr, Nat.mod_eq_of_lt (by omega), rfl, Nat.mod_eq_of_lt (by omega)⟩

end Sys2Proof.Machine
end

section
/-! SUPPORT. What one step can do, and the invariants that every step keeps (R28, R31, R37, R151,
R221). -/

namespace Sys2Proof.Machine

/-- Settles O6, by the empty queue. -/
theorem idleStepHoldsState : Obligations.IdleStepHoldsState := by
  unfold Obligations.IdleStepHoldsState
  intro s hpending
  rw [step, hpending]

/-- A step is idle, runs an instruction, refuses a reserved opcode, takes in bytes of no row, or
resets (R62, R80, R85, R264, R270). -/
theorem step_cases {s t : State} (h : step s = .next t) :
    (s.pending = [] ∧ t = s)
    ∨ ∃ e rest, s.pending = e :: rest
      ∧ ((∃ i, decode e = .instr i ∧ exec i (s.take rest) = .next t)
        ∨ (∃ op, decode e = .reservedOp op
            ∧ t = (s.take rest).respond (refusedResult .illegalOp))
        ∨ (decode e = .unknownPacket ∧ t = receiveRaw (s.take rest) e)
        ∨ (decode e = .resetInput ∧ t = (s.take rest).resetInput)) := by
  unfold step at h
  cases hq : s.pending with
  | nil =>
    rw [hq] at h
    exact .inl ⟨rfl, (Host.Outcome.next.inj h).symm⟩
  | cons e rest =>
    rw [hq] at h
    refine .inr ⟨e, rest, rfl, ?_⟩
    cases hd : decode e with
    | instr i => exact .inl ⟨i, rfl, by simpa only [hd] using h⟩
    | reservedOp op => exact .inr (.inl ⟨op, rfl, by simpa [hd] using h⟩)
    | unknownPacket => exact .inr (.inr (.inl ⟨rfl, by simpa [hd, eq_comm] using h⟩))
    | resetInput => exact .inr (.inr (.inr ⟨rfl, by simpa [hd, eq_comm] using h⟩))

/-- Bytes of no row arrive as any others do, or there were none (R50, R100). -/
theorem receiveRaw_cases (s : State) (e : Event) :
    receiveRaw s e = s ∨ ∃ b, receiveRaw s e = s.present b := by
  cases e with
  | issue p => exact .inl rfl
  | receive b => exact .inr ⟨b, rfl⟩
  | reset => exact .inl rfl

/-! ## LASTREQ is empty or a request packet -/

theorem effect_keeps_lastReqInv {i : Instr} {s t : State} (h : LastReqInv s) (he : Effect s i t) :
    LastReqInv t := by
  cases he with
  | resets => exact .inl rfl
  | setsTmo => exact h
  | clearsCs => exact h
  | putsByte => exact h
  | answers => exact h
  | arrives => exact h
  | stores i rid p _ _ hp => exact .inr ⟨rid, hp.request⟩
  | consumesId => exact h
  | opens i p e _ _ hp => exact .inr ⟨nextId s, hp.request⟩
  | fails => exact h
  | closes => exact h

theorem lastReqInv_receiveRaw {s : State} (h : LastReqInv s) (e : Event) :
    LastReqInv (receiveRaw s e) := by
  obtain hr | ⟨b, hr⟩ := receiveRaw_cases s e
  · rwa [hr]
  · rw [hr]; exact h

/-- Settles O58: only a build, an issue or a reset writes LASTREQ. -/
theorem stepKeepsRequestPacket : Obligations.StepKeepsRequestPacket := by
  unfold Obligations.StepKeepsRequestPacket
  intro s t h hstep
  obtain ⟨-, rfl⟩ | ⟨e, rest, -, hnext⟩ := step_cases hstep
  · exact h
  have htake : LastReqInv (s.take rest) := h
  obtain ⟨i, -, hexec⟩ | ⟨op, -, rfl⟩ | ⟨-, rfl⟩ | ⟨-, rfl⟩ := hnext
  · exact effect_keeps_lastReqInv htake (exec_effect hexec)
  · exact htake
  · exact lastReqInv_receiveRaw htake e
  · exact .inl rfl

/-! ## The invariants of R37 -/

section EngineInvariant

variable {issued : Bool} {s : State}

theorem engineInv_resetOf (c : Config) : EngineInv false (State.resetOf c) where
  busyKind := nofun
  busyLen := nofun
  busyIdle := nofun
  kindNone _ := rfl
  txMax := Nat.zero_le _
  txLarge _ := Nat.zero_le _
  txSmall _ := Nat.zero_le _
  csMax := Nat.zero_le _
  csParity := rfl
  csBound := Nat.zero_le _

theorem engineInv_resetRegisters (s : State) : EngineInv false s.resetRegisters :=
  { engineInv_resetOf s.cfg with }

theorem EngineInv.respond (h : EngineInv issued s) (r : ResultPorts) :
    EngineInv issued (s.respond r) := { h with }

theorem EngineInv.present (h : EngineInv issued s) (b : Bytes) : EngineInv issued (s.present b) :=
  { h with }

theorem EngineInv.receiveRaw (h : EngineInv issued s) (e : Event) :
    EngineInv issued (receiveRaw s e) := by
  obtain hr | ⟨b, hr⟩ := receiveRaw_cases s e
  · rwa [hr]
  · rw [hr]; exact h.present b

/-- CS.CLR (R125). -/
theorem EngineInv.clearCs (h : EngineInv issued s) : EngineInv issued s.clearCs :=
  { h with
    csMax := Nat.zero_le _
    csParity := rfl
    csBound := Nat.zero_le _ }

/-- The accumulator after one more byte stays within what its bytes can sum to (R31). -/
theorem csAcc_add_putAddend_le (a : BitVec 32) (n : Nat) (x : Byte)
    (ha : a.toNat ≤ 65535 * (n / 2) + 65280 * (n % 2)) :
    (a + putAddend (decide (n % 2 = 1)) x).toNat
      ≤ 65535 * ((n + 1) / 2) + 65280 * ((n + 1) % 2) := by
  have hx : x.toNat < 256 := x.isLt
  have hvalue : placeValue n x ≤ if n % 2 = 0 then 65280 else 255 := by
    unfold placeValue
    split <;> omega
  rw [putAddend_parity, BitVec.toNat_add, BitVec.toNat_ofNat]
  split at hvalue <;> omega

/-- CS.PUT that is not refused (R126). -/
theorem EngineInv.putCs (h : EngineInv issued s) (x : Byte) (hcnt : s.csCnt.toNat ≠ csMaxLen) :
    EngineInv issued (s.putCs x) := by
  have hlt : s.csCnt.toNat < 65534 := Nat.lt_of_le_of_ne h.csMax hcnt
  have hsucc : (s.putCs x).csCnt.toNat = s.csCnt.toNat + 1 := csCnt_succ_toNat s.csCnt hlt
  refine { h with csMax := ?_, csParity := ?_, csBound := ?_ }
  · rw [hsucc]; exact hlt
  · rw [hsucc, State.putCs_csOdd, h.csParity, oddNext_parity]
  · rw [hsucc, State.putCs_csAcc, h.csParity]
    exact csAcc_add_putAddend_le s.csAcc s.csCnt.toNat x h.csBound

/-- A packet stored while no request is outstanding (R141). -/
theorem EngineInv.storeReq (h : EngineInv issued s) {rid : BitVec 16} {p : Bytes}
    (hbusy : s.busy = false) (hp : StoredRequest s.cfg rid p) : EngineInv issued (s.storeReq p) :=
  { h with
    busyLen := fun hb => absurd hb (by simp [hbusy])
    txMax := hp.fits
    txLarge := fun hmax => pktMax_of_le s.cfg hmax ▸ hp.fits
    txSmall := fun hmax => pktMax_of_lt s.cfg hmax ▸ hp.fits }

/-- A request issued (R201). -/
theorem EngineInv.openRequest (h : EngineInv issued s) {rid : BitVec 16} {p : Bytes} {e : Expect}
    (hbusy : s.busy = false) (hp : StoredRequest s.cfg rid p) (hkind : e.kind ≠ .none) :
    EngineInv true (s.openRequest p e) :=
  { h.storeReq hbusy hp with
    busyKind := fun _ => hkind
    busyLen := fun _ => hp.minLen
    busyIdle := fun _ => rfl
    kindNone := fun hnone => absurd hnone hkind }

theorem EngineInv.failEntry (h : EngineInv issued s) : EngineInv issued s.failEntry :=
  { h with busyKind := nofun, busyLen := nofun, busyIdle := nofun }

theorem EngineInv.closeRequest (h : EngineInv issued s) : EngineInv issued s.closeRequest :=
  { h with busyKind := nofun, busyLen := nofun, busyIdle := nofun }

/-- The count of R37 (b) enters the invariant in one direction only. -/
theorem EngineInv.of_issued {issued' : Bool} (h : EngineInv issued s)
    (hle : issued = false → issued' = false) : EngineInv issued' s :=
  { h with kindNone := fun hnone => hle (h.kindNone hnone) }

end EngineInvariant

/-- Whether an issue has succeeded since the last reset, after the instruction `i` (R37 (b)). -/
def issuedByInstr (issued : Bool) (i : Instr) (t : State) : Bool :=
  if i = .srst then false else issued || (isIssue i && t.out.rc == 0)

theorem issuedAfter_of_instr (issued : Bool) (s t : State) (e : Event) (rest : List Event)
    (i : Instr) (hq : s.pending = e :: rest) (hd : decode e = .instr i) :
    issuedAfter issued s t = issuedByInstr issued i t := by
  by_cases hi : i = .srst
  · subst hi
    simp only [issuedAfter, hq, hd, issuedByInstr, if_pos]
  · simp only [issuedAfter, hq, hd, issuedByInstr, if_neg hi]

/-- An instruction that is no successful issue counts none. -/
theorem EngineInv.uncounted {issued : Bool} {t : State} {i : Instr} (h : EngineInv issued t)
    (hi : isIssue i = true → t.out.rc ≠ 0) : EngineInv (issuedByInstr issued i t) t := by
  refine h.of_issued fun hissued => ?_
  unfold issuedByInstr
  cases hiss : isIssue i with
  | false => simp [hissued]
  | true =>
    have hrc : t.out.rc ≠ 0 := hi hiss
    simpa [hissued] using fun _ => hrc

theorem effect_keeps_engineInv {issued : Bool} {i : Instr} {s t : State} (h : EngineInv issued s)
    (he : Effect s i t) : EngineInv (issuedByInstr issued i t) t := by
  have hnot {j : Instr} {f : Family} {u : State} (hf : family j = f) (hread : f ≠ .issueRead)
      (hwrite : f ≠ .issueWrite) : isIssue j = true → u.out.rc ≠ 0 := fun hj =>
    absurd hj (by simp [isIssue_eq_false_of_family hf hread hwrite])
  cases he with
  | resets => exact (engineInv_resetRegisters s).respond okResult
  | setsTmo v => exact EngineInv.uncounted { h with } nofun
  | clearsCs => exact (h.clearCs.respond okResult).uncounted nofun
  | putsByte x hcnt => exact ((h.putCs x hcnt).respond okResult).uncounted nofun
  | answers i r hissue =>
    refine (h.respond r).uncounted fun hi => ?_
    rw [State.respond_out, (hissue hi).2]
    decide
  | arrives i b hf => exact (h.present b).uncounted (hnot hf nofun nofun)
  | stores i rid p hf hbusy hp =>
    exact ((h.storeReq hbusy hp).respond (okTx p)).uncounted (hnot hf nofun nofun)
  | consumesId i hf hbusy => exact EngineInv.uncounted { h with } fun _ => nofun
  | opens i p e hf hbusy hp hkind =>
    have hbump : EngineInv issued s.bumpId := { h with }
    exact ((hbump.openRequest hbusy hp hkind).respond _).of_issued nofun
  | fails i r hf hbusy => exact (h.failEntry.respond r).uncounted (hnot hf nofun nofun)
  | closes i r hf hbusy => exact (h.closeRequest.respond r).uncounted (hnot hf nofun nofun)

/-- Settles O57: each effect of an instruction keeps the invariant, and so do the steps that run
none. -/
theorem stepKeepsEngineInvariant : Obligations.StepKeepsEngineInvariant := by
  unfold Obligations.StepKeepsEngineInvariant
  intro issued s t h hstep
  obtain ⟨hq, rfl⟩ | ⟨e, rest, hq, hnext⟩ := step_cases hstep
  · simpa only [issuedAfter, hq] using h
  have htake : EngineInv issued (s.take rest) := { h with }
  obtain ⟨i, hd, hexec⟩ | ⟨op, hd, rfl⟩ | ⟨hd, rfl⟩ | ⟨hd, rfl⟩ := hnext
  · rw [issuedAfter_of_instr issued s t e rest i hq hd]
    exact effect_keeps_engineInv htake (exec_effect hexec)
  · simp only [issuedAfter, hq, hd]
    exact htake.respond _
  · simp only [issuedAfter, hq, hd]
    exact htake.receiveRaw e
  · simp only [issuedAfter, hq, hd]
    exact (engineInv_resetRegisters _).respond _

/-- Settles O59: every register has its reset value. -/
theorem resetMeetsInvariants : Obligations.ResetMeetsInvariants := by
  unfold Obligations.ResetMeetsInvariants
  exact fun c => ⟨engineInv_resetOf c, .inl rfl, rfl⟩

end Sys2Proof.Machine
end

section
/-! SUPPORT. What an instruction leaves alone, and where `exec` stops (R24, R215, R232, R248). -/

namespace Sys2Proof.Machine

/-- REQID is left by everything but an issue and SRST (R24). -/
theorem effect_reqid {i : Instr} {s t : State} (he : Effect s i t) (hsrst : i ≠ .srst)
    (hi : isIssue i = false) : t.reqid = s.reqid := by
  cases he with
  | resets => exact absurd rfl hsrst
  | consumesId i hf => exact absurd hf (by simp [hi])
  | opens i p e hf => exact absurd hf (by simp [hi])
  | setsTmo => rfl
  | clearsCs => rfl
  | putsByte => rfl
  | answers => rfl
  | arrives => rfl
  | stores => rfl
  | fails => rfl
  | closes => rfl

/-- Settles O51, by the three outcomes of an issue and the frame of everything else. -/
theorem reqidOnlyByIssue : Obligations.ReqidOnlyByIssue := by
  unfold Obligations.ReqidOnlyByIssue
  intro i s t h
  have hnext : (nextId s).toNat = (s.reqid.toNat + 1) % 65536 := BitVec.toNat_add s.reqid 1
  refine ⟨?_, effect_reqid (exec_effect h), fun hi hbusy => ?_, fun hi hidle => ?_,
    fun hi hok => ?_⟩
  · rintro rfl
    obtain rfl := (done_next _ t _).mp h
    rfl
  · obtain ⟨-, rfl⟩ | ⟨hidle, -⟩ | ⟨_, _, hidle, -⟩ := exec_issue_cases hi h
    · rfl
    · simp [hidle] at hbusy
    · simp [hidle] at hbusy
  · obtain ⟨hbusy, -⟩ | ⟨-, rfl⟩ | ⟨_, _, -, -, -, rfl⟩ := exec_issue_cases hi h
    · simp [hidle] at hbusy
    · exact hnext
    · exact hnext
  · obtain ⟨-, rfl⟩ | ⟨-, rfl⟩ | ⟨_, _, -, hp, -, rfl⟩ := exec_issue_cases hi h
    · cases hok
    · cases hok
    · exact hp.request.rid_eq

/-- Settles O54: of all effects only a completion that owes a drain enters AwaitingFlush. -/
theorem failureEntryChangesTwoRegisters : Obligations.FailureEntryChangesTwoRegisters := by
  unfold Obligations.FailureEntryChangesTwoRegisters
  intro i s t h hidle hflush
  have hleft {u : State} (hu : u.rsync = .awaitingFlush) : u.rsync ≠ s.rsync := by
    rw [hu, hidle]
    nofun
  cases exec_effect h with
  | fails i r hf hbusy => exact ⟨hf, hbusy, rfl⟩
  | resets => cases hflush
  | opens => cases hflush
  | setsTmo => exact absurd rfl (hleft hflush)
  | clearsCs => exact absurd rfl (hleft hflush)
  | putsByte => exact absurd rfl (hleft hflush)
  | answers => exact absurd rfl (hleft hflush)
  | arrives => exact absurd rfl (hleft hflush)
  | stores => exact absurd rfl (hleft hflush)
  | consumesId => exact absurd rfl (hleft hflush)
  | closes => exact absurd rfl (hleft hflush)

/-! ## Where `exec` stops -/

theorem build_answers (s : State) (rid : BitVec 16) (packet : Option Bytes) :
    ∃ t, build s rid packet = .next t := by
  unfold build
  split
  · exact ⟨_, rfl⟩
  · cases packet <;> exact ⟨_, rfl⟩

theorem issue_answers (s : State) (packet : BitVec 16 → Option Bytes) (e : Expect) :
    ∃ t, issue s packet e = .next t := by
  unfold issue
  split
  · exact ⟨_, rfl⟩
  · cases packet (nextId s) <;> exact ⟨_, rfl⟩

theorem inspect_answers (s : State) (pkt : Bytes) (r : ResultPorts) :
    ∃ t, inspect s pkt r = .next t := by
  unfold inspect
  split <;> exact ⟨_, rfl⟩

theorem timeout_answers (s : State) : ∃ t, timeout s = .next t := by
  unfold timeout
  split <;> exact ⟨_, rfl⟩

theorem complete_answers (s : State) (r : ResultPorts) : ∃ t, complete s r = .next t := by
  unfold complete
  split <;> exact ⟨_, rfl⟩

theorem csPut_answers (x : Byte) (s : State) : ∃ t, execCsPut x s = .next t := by
  unfold execCsPut
  split <;> exact ⟨_, rfl⟩

/-- R215 gives a result for every kind but NONE. -/
theorem judge_eq_none_iff (s : State) (pkt : Bytes) (cap : BitVec 16) :
    judge s pkt cap = none ↔ s.expect.kind = .none := by
  unfold judge
  cases s.expect.kind <;> simp

/-- The one case of SQ.ACK for which R215 has no result (log 10). -/
def MissingExpectation (s : State) (pkt : Bytes) : Prop :=
  s.busy = true ∧ pkt ≠ [] ∧ pkt.length ≤ rxMax s.cfg ∧ s.expect.kind = .none

/-- SQ.ACK stops in that case, and otherwise answers. -/
theorem acknowledge_stops_or_answers (s : State) (pkt : Bytes) (cap : BitVec 16) :
    (MissingExpectation s pkt ∧ acknowledge s pkt cap = .fault .expectNone)
    ∨ (¬ MissingExpectation s pkt ∧ ∃ t, acknowledge s pkt cap = .next t) := by
  unfold acknowledge
  split
  · next hidle => exact .inr ⟨fun ⟨hbusy, _⟩ => by simp [hidle] at hbusy, _, rfl⟩
  next hbusy =>
  split
  · next hlong => exact .inr ⟨fun ⟨_, _, hfits, _⟩ => Nat.not_lt.mpr hfits hlong, _, rfl⟩
  next hfits =>
  split
  · next hempty => exact .inr ⟨fun ⟨_, hne, _⟩ => hne hempty, timeout_answers s⟩
  next hne =>
  cases hj : judge s pkt cap with
  | none =>
    have hkind := (judge_eq_none_iff s pkt cap).mp hj
    exact .inl ⟨⟨by simpa using hbusy, hne, Nat.not_lt.mp hfits, hkind⟩, rfl⟩
  | some r =>
    refine .inr ⟨fun ⟨_, _, _, hkind⟩ => ?_, complete_answers s r⟩
    simp [(judge_eq_none_iff s pkt cap).mpr hkind] at hj

/-- Every instruction but SQ.ACK answers a next state. -/
theorem exec_answers (i : Instr) (s : State) (hack : ∀ pkt cap, i ≠ .sqAck pkt cap) :
    ∃ t, exec i s = .next t := by
  cases hf : family i with
  | control =>
    match i, hf with
    | .srst, _ => exact ⟨_, rfl⟩
    | .wrtmo _, _ => exact ⟨_, rfl⟩
    | .rdst, _ => exact ⟨_, rfl⟩
  | checksum =>
    match i, hf with
    | .csClr, _ => exact ⟨_, rfl⟩
    | .csPut x, _ => exact csPut_answers x s
    | .csGet, _ => exact ⟨_, rfl⟩
  | build =>
    obtain ⟨rid, packet, hexec, -⟩ := exec_of_build i s hf
    exact hexec ▸ build_answers s rid packet
  | validate =>
    obtain ⟨pkt, r, hexec⟩ := exec_of_codec i s (.inl hf)
    exact hexec ▸ inspect_answers s pkt r
  | extract =>
    obtain ⟨pkt, r, hexec⟩ := exec_of_codec i s (.inr hf)
    exact hexec ▸ inspect_answers s pkt r
  | issueRead =>
    obtain ⟨packet, e, hexec, -⟩ := exec_of_issue i s (by simp [isIssue, hf])
    exact hexec ▸ issue_answers s packet e
  | issueWrite =>
    obtain ⟨packet, e, hexec, -⟩ := exec_of_issue i s (by simp [isIssue, hf])
    exact hexec ▸ issue_answers s packet e
  | complete =>
    match i, hf with
    | .sqAck pkt cap, _ => exact absurd rfl (hack pkt cap)
    | .sqTmo, _ => exact timeout_answers s
  | packet =>
    obtain ⟨b, hexec⟩ := exec_of_packet i s hf
    exact ⟨_, hexec⟩

/-- Settles O49, by the cases of SQ.ACK and the answer of every other instruction. -/
theorem onlyStopIsMissingExpectation : Obligations.OnlyStopIsMissingExpectation := by
  unfold Obligations.OnlyStopIsMissingExpectation
  intro i s
  by_cases hack : ∃ pkt cap, i = .sqAck pkt cap
  · obtain ⟨pkt, cap, rfl⟩ := hack
    have hexec : exec (.sqAck pkt cap) s = acknowledge s pkt cap := rfl
    obtain ⟨hcause, hstop⟩ | ⟨hnot, t, ht⟩ :=
      acknowledge_stops_or_answers s pkt cap
    · rw [hexec, hstop]
      exact ⟨⟨fun _ => ⟨pkt, cap, rfl, hcause⟩, fun _ => rfl⟩,
        fun h => absurd rfl h⟩
    · rw [hexec, ht]
      refine ⟨⟨nofun, ?_⟩, fun _ => ⟨t, rfl⟩⟩
      rintro ⟨_, _, ⟨rfl, rfl⟩, hcause⟩
      exact absurd hcause hnot
  · obtain ⟨t, ht⟩ := exec_answers i s fun pkt cap hi => hack ⟨pkt, cap, hi⟩
    rw [ht]
    refine ⟨⟨nofun, ?_⟩, fun _ => ⟨t, rfl⟩⟩
    rintro ⟨pkt, cap, hi, -⟩
    exact absurd ⟨pkt, cap, hi⟩ hack

/-- Settles O14, each port by the encoding of its register. -/
theorem rdstShowsEveryRegister : Obligations.RdstShowsEveryRegister := by
  unfold Obligations.RdstShowsEveryRegister
  intro s
  have hbit (b : Bool) : (b = false → BitVec.ofBool b = 0) ∧ (b = true → BitVec.ofBool b = 1) :=
    ⟨fun h => h ▸ rfl, fun h => h ▸ rfl⟩
  have hrsync (v : Resync) :
      (v = .idle → rsyncBits v = 0) ∧ (v = .awaitingFlush → rsyncBits v = 1) :=
    ⟨fun h => h ▸ rfl, fun h => h ▸ rfl⟩
  have hkind {k : ResponseKind} (h : s.expect.kind = k) :
      (stateResult s).ekind = kindBits k := h ▸ rfl
  exact ⟨stateResult s, rfl, rfl, rfl, (hbit s.busy).1, (hbit s.busy).2, (hrsync s.rsync).1,
    (hrsync s.rsync).2, hkind, hkind, hkind, hkind, hkind, hkind, hkind, hkind, rfl, rfl, rfl, rfl,
    rfl, rfl, (hbit s.csOdd).1, (hbit s.csOdd).2, rfl, rfl, rfl, rfl, rfl, rfl, rfl, rfl, rfl, rfl,
    rfl, rfl⟩

end Sys2Proof.Machine
end

section
/-! SUPPORT. What arrives in RXBUF: every byte sequence that the decoder recognises is a packet row,
and a packet row is an arrival of its own bytes (R50, R100, R104). -/

namespace Sys2Proof.Machine

/-- Bytes that stand for an operation issued next are its operand `pkt` (R50, R82). -/
theorem present_before_issue {s : State} {b : Bytes} {p : Ports} {more : List Event}
    (h : s.pending = .issue p :: more) :
    s.present b = { s with pending := .issue { p with pkt := b } :: more } := by
  rw [State.present, h, presentTo_issue]

/-- Bytes that no operation follows leave the state as it is (R50). -/
theorem present_before_no_issue {s : State} {b : Bytes}
    (h : ∀ p more, s.pending ≠ .issue p :: more) :
    s.present b = s := by
  rw [State.present, presentTo_of_not_issue b _ h]

/-- A packet row is the arrival of the bytes that it is encoded as (R93 to R98, log 1). -/
theorem exec_of_packet_encode (i : Instr) (hf : family i = .packet) :
    ∃ b, encode i = .receive b ∧ ∀ s, exec i s = .next (s.present b) := by
  match i, hf with
  | .pktReadmemReq _ _ _ _, _ => exact ⟨_, rfl, fun _ => rfl⟩
  | .pktWritememReq _ _ _ _ _, _ => exact ⟨_, rfl, fun _ => rfl⟩
  | .pktReadmemAck _ _ _ _ _ _ _, _ => exact ⟨_, rfl, fun _ => rfl⟩
  | .pktWritememAck _ _ _ _ _ _ _, _ => exact ⟨_, rfl, fun _ => rfl⟩
  | .pktPendingAck _ _ _ _ _ _ _, _ => exact ⟨_, rfl, fun _ => rfl⟩

/-- The decoder reads bytes as no packet, or as the packet row that is encoded as these bytes
(R104). -/
theorem decodePacket_cases (b : Bytes) :
    decodePacket b = .unknownPacket
    ∨ ∃ i, decodePacket b = .instr i ∧ family i = .packet ∧ encode i = .receive b := by
  unfold decodePacket
  split
  · exact .inl rfl
  next hhdr =>
  obtain ⟨hlen, hpre⟩ := not_or.mp hhdr
  have hfields := packetBytes_of_fields b (Nat.not_lt.mp hlen)
  rw [not_not.mp hpre] at hfields
  split
  · next h =>
    obtain ⟨hcmd, hchan, hflags, hscd⟩ := h
    rw [hcmd, hchan, hflags, hscd] at hfields
    exact .inr ⟨_, rfl, rfl, congrArg Event.receive hfields⟩
  split
  · next h =>
    obtain ⟨hcmd, hchan, hflags⟩ := h
    rw [hcmd, hchan, hflags] at hfields
    exact .inr ⟨_, rfl, rfl, congrArg Event.receive hfields⟩
  split
  · next hcmd => exact .inr ⟨_, rfl, rfl, congrArg Event.receive (hcmd ▸ hfields)⟩
  split
  · next hcmd => exact .inr ⟨_, rfl, rfl, congrArg Event.receive (hcmd ▸ hfields)⟩
  split
  · next hcmd => exact .inr ⟨_, rfl, rfl, congrArg Event.receive (hcmd ▸ hfields)⟩
  · exact .inl rfl

/-- Settles O5, by the arm of `step` for a decoded instruction. -/
theorem stepRunsDecodedInstruction : Obligations.StepRunsDecodedInstruction := by
  unfold Obligations.StepRunsDecodedInstruction
  intro s e rest i hq hd
  simp only [step, hq, hd, State.take]

/-- Received bytes of a packet row and of none arrive alike (R50, R100). -/
theorem step_of_receive {s : State} {b : Bytes} {rest : List Event}
    (hq : s.pending = .receive b :: rest) : step s = .next ((s.take rest).present b) := by
  obtain hunknown | ⟨i, hd, hf, hi⟩ := decodePacket_cases b
  · simp only [step, hq, decode, hunknown, receiveRaw]
  · obtain ⟨b', hi', hexec⟩ := exec_of_packet_encode i hf
    obtain rfl : b' = b := Event.receive.inj (hi'.symm.trans hi)
    exact (stepRunsDecodedInstruction s _ rest i hq hd).trans (hexec _)

/-- Settles O8, by what the event after the bytes is. -/
theorem receivedBytesOnlyLoadRxbuf : Obligations.ReceivedBytesOnlyLoadRxbuf := by
  unfold Obligations.ReceivedBytesOnlyLoadRxbuf
  intro s b rest hq
  rw [step_of_receive hq]
  exact ⟨fun p more hrest => congrArg Host.Outcome.next (present_before_issue hrest),
    fun hrest => congrArg Host.Outcome.next (present_before_no_issue hrest)⟩

/-- Settles O9: each row is the arrival of its bytes. -/
theorem packetRowsLoadRxbuf : Obligations.PacketRowsLoadRxbuf := by
  unfold Obligations.PacketRowsLoadRxbuf
  intro i s hf
  obtain ⟨b, hi, hexec⟩ := exec_of_packet_encode i hf
  rw [hexec s]
  exact ⟨b, hi, fun p more hq => congrArg Host.Outcome.next (present_before_issue hq),
    fun hq => congrArg Host.Outcome.next (present_before_no_issue hq)⟩

end Sys2Proof.Machine
end

section
/-! SUPPORT. One request at a time (R220): which results return a packet, and what an outstanding
request keeps as it is. -/

namespace Sys2Proof.Machine

theorem verdictResult_tx (exp : BitVec 16) (v : Verdict) : (verdictResult exp v).tx = [] := by
  cases v <;> rfl

theorem extractScalar_tx (c : Config) (pkt : Bytes) (exp : BitVec 16) (w : Nat) :
    (extractScalar c pkt exp w).tx = [] := by
  obtain ⟨_, hr⟩ | ⟨_, _, hr, -⟩ := extractScalar_cases c pkt exp w <;> rw [hr] <;> rfl

theorem extractBytes_tx (c : Config) (pkt : Bytes) (exp cap : BitVec 16) :
    (extractBytes c pkt exp cap).tx = [] := by
  obtain ⟨_, _, _, hr⟩ | ⟨_, _, _, hr⟩ | ⟨_, _, hr, -⟩ := extractBytes_cases c pkt exp cap <;>
    rw [hr] <;> rfl

/-- SQ.ACK finds no packet to send (R215). -/
theorem judge_tx {s : State} {pkt : Bytes} {cap : BitVec 16} {r : ResultPorts}
    (h : judge s pkt cap = some r) : r.tx = [] := by
  obtain ⟨-, rfl⟩ | ⟨-, rfl⟩ | ⟨w, -, -, -, rfl⟩ := judge_cases s pkt cap r h
  · exact verdictResult_tx _ _
  · exact extractBytes_tx _ _ _ _
  · exact extractScalar_tx _ _ _ w

/-- VAL.* and EXT.* inspect the packet for a result that returns none (R164, R165, R183 to R188). -/
theorem exec_of_codec_tx (i : Instr) (s : State)
    (hf : family i = .validate ∨ family i = .extract) :
    ∃ pkt r, exec i s = inspect s pkt r ∧ r.tx = [] := by
  match i, hf with
  | .valRd _ _, _ => exact ⟨_, _, rfl, verdictResult_tx _ _⟩
  | .valWr _ _, _ => exact ⟨_, _, rfl, verdictResult_tx _ _⟩
  | .extB _ _ _, _ => exact ⟨_, _, rfl, extractBytes_tx _ _ _ _⟩
  | .extU16 _ _, _ => exact ⟨_, _, rfl, extractScalar_tx _ _ _ 2⟩
  | .extU32 _ _, _ => exact ⟨_, _, rfl, extractScalar_tx _ _ _ 4⟩
  | .extU64 _ _, _ => exact ⟨_, _, rfl, extractScalar_tx _ _ _ 8⟩
  | .extF32 _ _, _ => exact ⟨_, _, rfl, extractScalar_tx _ _ _ 4⟩
  | .extF64 _ _, _ => exact ⟨_, _, rfl, extractScalar_tx _ _ _ 8⟩

theorem codec_tx {i : Instr} {s t : State} (hf : family i = .validate ∨ family i = .extract)
    (h : exec i s = .next t) : t.out.tx = [] := by
  obtain ⟨pkt, r, hexec, hr⟩ := exec_of_codec_tx i s hf
  obtain ⟨-, rfl⟩ | ⟨-, rfl⟩ := inspect_cases s t pkt r (hexec ▸ h)
  · rfl
  · exact hr

theorem timeout_tx {s t : State} (h : timeout s = .next t) : t.out.tx = [] := by
  obtain ⟨-, rfl⟩ | ⟨-, rfl⟩ := timeout_cases s t h <;> rfl

theorem acknowledge_tx {s t : State} {pkt : Bytes} {cap : BitVec 16}
    (h : acknowledge s pkt cap = .next t) : t.out.tx = [] := by
  obtain ⟨-, rfl⟩ | ⟨-, -, rfl⟩ | ⟨-, -, htmo⟩ | ⟨r, -, -, -, hr, hdone⟩ :=
    acknowledge_cases s t pkt cap h
  · rfl
  · rfl
  · exact timeout_tx htmo
  · obtain ⟨-, rfl⟩ | ⟨-, rfl⟩ := complete_cases s t r hdone
    · exact judge_tx hr
    · exact judge_tx hr

theorem csPut_tx {s t : State} {x : Byte} (h : execCsPut x s = .next t) : t.out.tx = [] := by
  unfold execCsPut at h
  split at h
  · obtain rfl := (refuse_next s t _).mp h
    rfl
  · obtain rfl := (done_next _ t _).mp h
    rfl

/-- With a request outstanding, RDST alone returns a packet: a build or an issue is refused. A
packet row is no operation and leaves the ports. -/
theorem exec_tx_of_busy {i : Instr} {s t : State} (hbusy : s.busy = true) (hrdst : i ≠ .rdst)
    (hpacket : family i ≠ .packet) (h : exec i s = .next t) : t.out.tx = [] := by
  have hissue (hi : isIssue i = true) : t.out.tx = [] := by
    obtain ⟨-, rfl⟩ | ⟨hidle, -⟩ | ⟨_, _, hidle, -⟩ := exec_issue_cases hi h
    · rfl
    · simp [hbusy] at hidle
    · simp [hbusy] at hidle
  cases hf : family i with
  | control =>
    match i, hf with
    | .srst, _ => obtain rfl := (done_next _ t _).mp h; rfl
    | .wrtmo _, _ => obtain rfl := (done_next _ t _).mp h; rfl
    | .rdst, _ => exact absurd rfl hrdst
  | checksum =>
    match i, hf with
    | .csClr, _ => obtain rfl := (done_next _ t _).mp h; rfl
    | .csPut _, _ => exact csPut_tx h
    | .csGet, _ => obtain rfl := (done_next _ t _).mp h; rfl
  | build =>
    obtain ⟨rid, packet, hexec, -⟩ := exec_of_build i s hf
    obtain ⟨-, rfl⟩ | ⟨hidle, -⟩ | ⟨_, hidle, -⟩ := build_cases s t rid packet (hexec ▸ h)
    · rfl
    · simp [hbusy] at hidle
    · simp [hbusy] at hidle
  | validate => exact codec_tx (.inl hf) h
  | extract => exact codec_tx (.inr hf) h
  | issueRead => exact hissue (by simp [isIssue, hf])
  | issueWrite => exact hissue (by simp [isIssue, hf])
  | complete =>
    match i, hf with
    | .sqAck _ _, _ => exact acknowledge_tx h
    | .sqTmo, _ => exact timeout_tx h
  | packet => exact absurd hf hpacket

/-- Of the effects of an instruction on an outstanding request only SRST drops what was recorded of
it, and only a completion ends it. -/
theorem effect_keeps_outstanding_request {i : Instr} {s t : State} (he : Effect s i t)
    (hbusy : s.busy = true) (hsrst : i ≠ .srst) :
    t.lastReq = s.lastReq ∧ t.reqid = s.reqid ∧ t.expect = s.expect
    ∧ (t.busy = true ∨ family i = .complete) := by
  cases he with
  | resets => exact absurd rfl hsrst
  | stores i rid p hf hidle => simp [hbusy] at hidle
  | consumesId i hf hidle => simp [hbusy] at hidle
  | opens i p e hf hidle => simp [hbusy] at hidle
  | fails i r hf => exact ⟨rfl, rfl, rfl, .inr hf⟩
  | closes i r hf => exact ⟨rfl, rfl, rfl, .inr hf⟩
  | setsTmo => exact ⟨rfl, rfl, rfl, .inl hbusy⟩
  | clearsCs => exact ⟨rfl, rfl, rfl, .inl hbusy⟩
  | putsByte => exact ⟨rfl, rfl, rfl, .inl hbusy⟩
  | answers => exact ⟨rfl, rfl, rfl, .inl hbusy⟩
  | arrives => exact ⟨rfl, rfl, rfl, .inl hbusy⟩

/-- Settles O52, by the effects on the registers and the packets on the ports. -/
theorem oneRequestOutstanding : Obligations.OneRequestOutstanding := by
  unfold Obligations.OneRequestOutstanding
  intro i s t hbusy hsrst h
  obtain ⟨hlast, hreqid, hexpect, hend⟩ :=
    effect_keeps_outstanding_request (exec_effect h) hbusy hsrst
  exact ⟨hlast, hreqid, hexpect, hend, fun hrdst hpacket => exec_tx_of_busy hbusy hrdst hpacket h⟩

end Sys2Proof.Machine
end

section
/-! SUPPORT. Several engines: a step of one is a step of its own state, written back in its place
(R262). -/

namespace Sys2Proof.Machine

/-- Outside the list there is no engine. -/
theorem systemStep_of_getElem?_none {sys : System} {k : Nat} (h : sys[k]? = none) :
    systemStep k sys = .next sys := by
  rw [systemStep, h]

/-- The `k`-th engine's step is the step of its state. -/
theorem systemStep_next_iff {sys sys' : System} {k : Nat} {s : State} (h : sys[k]? = some s) :
    systemStep k sys = .next sys' ↔ ∃ t, step s = .next t ∧ sys' = sys.set k t := by
  unfold systemStep
  rw [h]
  dsimp only
  cases step s with
  | next t => simp [eq_comm]
  | fault r => simp
  | refused r => simp

/-- What a step of the `j`-th engine does to a system, whether there is such an engine or not. -/
theorem systemStep_cases {sys sys' : System} {j : Nat} (h : systemStep j sys = .next sys') :
    (sys[j]? = none ∧ sys' = sys)
    ∨ ∃ u v, sys[j]? = some u ∧ step u = .next v ∧ sys' = sys.set j v := by
  cases hu : sys[j]? with
  | none =>
    rw [systemStep_of_getElem?_none hu] at h
    exact .inl ⟨rfl, (Host.Outcome.next.inj h).symm⟩
  | some u =>
    obtain ⟨v, hv, hset⟩ := (systemStep_next_iff hu).mp h
    exact .inr ⟨u, v, rfl, hv, hset⟩

theorem systemStep_length {sys sys' : System} {j : Nat} (h : systemStep j sys = .next sys') :
    sys'.length = sys.length := by
  obtain ⟨-, rfl⟩ | ⟨u, v, -, -, rfl⟩ := systemStep_cases h
  · rfl
  · exact List.length_set

/-- A step of one engine leaves every other untouched. -/
theorem systemStep_getElem?_ne {sys sys' : System} {j k : Nat} (hjk : j ≠ k)
    (h : systemStep j sys = .next sys') : sys'[k]? = sys[k]? := by
  obtain ⟨-, rfl⟩ | ⟨u, v, -, -, rfl⟩ := systemStep_cases h
  · rfl
  · exact List.getElem?_set_ne hjk

/-- A step of one engine does not see what state another is in. -/
theorem systemStep_set_ne {sys sys' : System} {j k : Nat} (t : State) (hjk : j ≠ k)
    (h : systemStep j sys = .next sys') :
    systemStep j (sys.set k t) = .next (sys'.set k t) := by
  have hget : (sys.set k t)[j]? = sys[j]? := List.getElem?_set_ne hjk.symm
  obtain ⟨hnone, rfl⟩ | ⟨u, v, hu, hv, rfl⟩ := systemStep_cases h
  · exact systemStep_of_getElem?_none (hget.trans hnone)
  · exact (systemStep_next_iff (hget.trans hu)).mpr ⟨v, hv, List.set_comm _ _ hjk⟩

/-- Settles O60: the second step writes the same state in the same place, before the first or after
it. -/
theorem enginesShareNothing : Obligations.EnginesShareNothing := by
  unfold Obligations.EnginesShareNothing
  intro sys sys1 sys2 j k s hjk hs hj hk
  have hs1 : sys1[k]? = some s := (systemStep_getElem?_ne hjk hj).trans hs
  have hlen : sys2.length = sys.length := (systemStep_length hk).trans (systemStep_length hj)
  obtain ⟨t, ht, rfl⟩ := (systemStep_next_iff hs1).mp hk
  obtain ⟨hk1, -⟩ := List.getElem?_eq_some_iff.mp hs1
  exact ⟨hs1, hlen, ⟨t, ht, List.getElem?_set_self hk1⟩, sys.set k t,
    (systemStep_next_iff hs).mpr ⟨t, ht, rfl⟩, systemStep_set_ne t hjk hj⟩

end Sys2Proof.Machine
end

section
/-! SUPPORT. The decoder on operations: each opcode of the map reads its row, every other one is
reserved (R84, R85, R87). -/

namespace Sys2Proof.Machine

/-- The decoder reads the opcode and the other ports of an issue, and nothing else. -/
theorem decodeOp_of_op {p : Ports} {op : BitVec 8} (h : p.op = op) :
    decodeOp p = decodeOp { p with op := op } := h ▸ rfl

/-- R85's list is outside the arms of the opcode map. -/
theorem decodeOp_reserved (p : Ports) (h : reservedOpcode p.op.toNat = true) :
    decodeOp p = .reservedOp p.op := by
  unfold decodeOp
  split
  case h_36 => rfl
  all_goals
    next hop => simp [hop, reservedOpcode] at h

/-- Settles O3: an opcode of the map selects its arm, one of R85's list selects none. -/
theorem opcodeMap : Obligations.OpcodeMap := by
  unfold Obligations.OpcodeMap
  intro p
  have hword (i : BitVec 64 → Instr) :
      Decoded.instr (i (dataLow 64 p.data)) = .instr (i p.data) := by
    rw [dataLow, BitVec.setWidth_eq]
  exact ⟨decodeOp_of_op, decodeOp_of_op, decodeOp_of_op, decodeOp_of_op, decodeOp_of_op,
    decodeOp_of_op, decodeOp_of_op, decodeOp_of_op, decodeOp_of_op, decodeOp_of_op,
    fun h => (decodeOp_of_op h).trans (hword (.bldWrU64 p.rid p.addr)), decodeOp_of_op,
    fun h => (decodeOp_of_op h).trans (hword (.bldWrF64 p.rid p.addr)), decodeOp_of_op,
    decodeOp_of_op, decodeOp_of_op, decodeOp_of_op, decodeOp_of_op, decodeOp_of_op, decodeOp_of_op,
    decodeOp_of_op, decodeOp_of_op, decodeOp_of_op, decodeOp_of_op, decodeOp_of_op, decodeOp_of_op,
    decodeOp_of_op, decodeOp_of_op, decodeOp_of_op, decodeOp_of_op,
    fun h => (decodeOp_of_op h).trans (hword (.sqWrU64 p.addr)), decodeOp_of_op,
    fun h => (decodeOp_of_op h).trans (hword (.sqWrF64 p.addr)), decodeOp_of_op, decodeOp_of_op,
    decodeOp_reserved p⟩

/-- Settles O7: the decoder reads the opcode as reserved, and the step refuses it. -/
theorem reservedOpcodeRefused : Obligations.ReservedOpcodeRefused := by
  unfold Obligations.ReservedOpcodeRefused
  intro s p rest hq hop
  simp only [step, hq, decode, decodeOp_reserved p hop]
  rfl

end Sys2Proof.Machine
end

section
/-! SUPPORT. Decoding what the encoder writes, and encoding what the decoder reads (R84, R87, R104). -/

namespace Sys2Proof.Machine

/-- The low bits of the `data` port give a scalar of at most 64 bits back (R82). -/
theorem dataLow_dataPort {n : Nat} (v : BitVec n) (h : n ≤ 64) : dataLow n (dataPort v) = v := by
  rw [dataLow, dataPort, BitVec.setWidth_setWidth_of_le v h, BitVec.setWidth_eq]

/-- A packet that is no request is told by its command id alone (R95, R96, R98, R104). -/
theorem decodePacket_of_no_request (ccd scd chan status cmd len rid : BitVec 16) (rest : Bytes)
    (hread : cmd ≠ cmdReadMem) (hwrite : cmd ≠ cmdWriteMem) :
    decodePacket (packetBytes preamble ccd scd chan status cmd len rid rest)
      = if cmd = cmdReadMemAck then .instr (.pktReadmemAck ccd scd chan status len rid rest)
        else if cmd = cmdWriteMemAck then .instr (.pktWritememAck ccd scd chan status len rid rest)
        else if cmd = cmdPendingAck then .instr (.pktPendingAck ccd scd chan status len rid rest)
        else .unknownPacket := by
  have hlen : ¬ 16 + rest.length < hdrBytes := by simp only [hdrBytes]; omega
  simp [decodePacket, hlen, hread, hwrite]

/-- Settles O1. An opcode selects its arm and a port that is an operand comes back as it is; a scalar
comes back from the low bits of `data`, and a packet row from its header fields. -/
theorem decodeOfEncode : Obligations.DecodeOfEncode := by
  unfold Obligations.DecodeOfEncode
  intro i
  have hscalar {n : Nat} (v : BitVec n) (op : BitVec n → Instr) (h : n ≤ 64) :
      Decoded.instr (op (dataLow n (dataPort v))) = .instr (op v) := by
    rw [dataLow_dataPort v h]
  cases i with
  | csPut x => exact hscalar x .csPut (by decide)
  | bldWrU16 rid addr d => exact hscalar d (.bldWrU16 rid addr) (by decide)
  | bldWrU32 rid addr d => exact hscalar d (.bldWrU32 rid addr) (by decide)
  | bldWrU64 rid addr d => exact hscalar d (.bldWrU64 rid addr) (by decide)
  | bldWrF32 rid addr d => exact hscalar d (.bldWrF32 rid addr) (by decide)
  | bldWrF64 rid addr d => exact hscalar d (.bldWrF64 rid addr) (by decide)
  | sqWrU16 addr d => exact hscalar d (.sqWrU16 addr) (by decide)
  | sqWrU32 addr d => exact hscalar d (.sqWrU32 addr) (by decide)
  | sqWrU64 addr d => exact hscalar d (.sqWrU64 addr) (by decide)
  | sqWrF32 addr d => exact hscalar d (.sqWrF32 addr) (by decide)
  | sqWrF64 addr d => exact hscalar d (.sqWrF64 addr) (by decide)
  | pktReadmemReq => exact decodePacket_readRequest ..
  | pktWritememReq => exact decodePacket_writeRequest ..
  | pktReadmemAck => exact decodePacket_of_no_request _ _ _ _ _ _ _ _ (by decide) (by decide)
  | pktWritememAck => exact decodePacket_of_no_request _ _ _ _ _ _ _ _ (by decide) (by decide)
  | pktPendingAck => exact decodePacket_of_no_request _ _ _ _ _ _ _ _ (by decide) (by decide)
  | _ => rfl

/-- Settles O2: a recognised packet is the row that is encoded as its bytes. -/
theorem encodeOfDecodedPacket : Obligations.EncodeOfDecodedPacket := by
  unfold Obligations.EncodeOfDecodedPacket
  intro b i hi
  obtain hunknown | ⟨j, hj, -, hencode⟩ := decodePacket_cases b
  · simp [hunknown] at hi
  · obtain rfl : j = i := Decoded.instr.inj (hj.symm.trans hi)
    exact hencode

/-- Settles O4: the four operation words by their arms, the header by what it is the encoding of. -/
theorem tableWordsDecode : Obligations.TableWordsDecode := by
  unfold Obligations.TableWordsDecode
  have hheader : tableEvent 128 0x01000000000000000000080300000000
      = encode (.pktWritememAck 0 0 0 0 0 0 []) := by decide
  refine ⟨rfl, rfl, rfl, rfl, ?_, rfl⟩
  rw [decodeTableWord, hheader, decodeOfEncode, Decoded.instr?]

end Sys2Proof.Machine
end

section
/-! SUPPORT. The packets that a build or an issue returns (R82, R144, R151). -/

namespace Sys2Proof.Machine

/-! The result classes by their numbers (R240). -/

@[simp] theorem refusedResult_rc (r : Reason) : (refusedResult r).rc = 3 := rfl
@[simp] theorem errResult_rc (kind : BitVec 12) (rid : BitVec 16) (c : Check) :
    (errResult kind rid c).rc = 1 := rfl
@[simp] theorem errIssue_rc (rid : BitVec 16) : (errIssue rid).rc = 1 := rfl

/-- Missing bytes of DIN stand behind the presented ones (R82, log 5). -/
theorem dinBytes_append_fill (draw : Nat) (cnt : BitVec 16) (din : Bytes)
    (h : din.length < cnt.toNat) :
    ∃ fill, fill.length = cnt.toNat - din.length ∧ dinBytes draw cnt din = din ++ fill := by
  rw [dinBytes, if_neg (Nat.not_le.mpr h)]
  exact ⟨_, by simp, rfl⟩

/-- With no request outstanding a build that has a packet stores and returns it (R141). -/
theorem build_of_packet (s : State) (rid : BitVec 16) (p : Bytes) (hidle : s.busy = false) :
    build s rid (some p) = .next { s with lastReq := p, out := portsTx p } := by
  rw [build, if_neg (ne_true_of_eq_false hidle)]
  rfl

/-- Settles O27: the payload is `cnt` bytes long, whatever the missing ones are. -/
theorem bldWrBKeepsPresentedBytes : Obligations.BldWrBKeepsPresentedBytes := by
  unfold Obligations.BldWrBKeepsPresentedBytes
  intro rid addr cnt din s hidle hmax hcnt hshort
  obtain ⟨fill, hfill, hdin⟩ := dinBytes_append_fill s.draws cnt din hshort
  have hlen : (din ++ fill).length = cnt.toNat := hdin ▸ dinBytes_length s.draws cnt din
  have hframe := frame_eq flagAckReq cmdWriteMem rid (encBe 8 addr.toNat ++ (din ++ fill))
    (by rw [List.length_append, encBe_length, hlen]; omega)
  refine ⟨fill, _, hfill, hframe, ?_⟩
  have hpacket := buildWrite_fits s.cfg rid addr (din ++ fill) (hlen ▸ hmax)
  rw [exec, execBldWrB, buildWriteDin_eq, hdin, hpacket, hframe, build_of_packet s _ _ hidle]

/-- BLD.* builds with its own port `rid` (R87, R143 to R150). -/
theorem exec_of_build_rid (i : Instr) (hf : family i = .build) :
    ∃ p, encode i = .issue p ∧ ∀ s, ∃ packet, exec i s = build s p.rid packet
      ∧ ∀ q, packet = some q → StoredRequest s.cfg p.rid q := by
  match i, hf with
  | .bldRd _ _ _, _ => exact ⟨_, rfl, fun _ => ⟨_, rfl, fun _ => storedRequest_of_buildRead⟩⟩
  | .bldWrB _ _ _ _, _ =>
    exact ⟨_, rfl, fun _ => ⟨_, rfl, fun _ => storedRequest_of_buildWriteDin⟩⟩
  | .bldWrU16 _ _ _, _ => exact ⟨_, rfl, fun _ => ⟨_, rfl, fun _ => storedRequest_of_buildWrite⟩⟩
  | .bldWrU32 _ _ _, _ => exact ⟨_, rfl, fun _ => ⟨_, rfl, fun _ => storedRequest_of_buildWrite⟩⟩
  | .bldWrU64 _ _ _, _ => exact ⟨_, rfl, fun _ => ⟨_, rfl, fun _ => storedRequest_of_buildWrite⟩⟩
  | .bldWrF32 _ _ _, _ => exact ⟨_, rfl, fun _ => ⟨_, rfl, fun _ => storedRequest_of_buildWrite⟩⟩
  | .bldWrF64 _ _ _, _ => exact ⟨_, rfl, fun _ => ⟨_, rfl, fun _ => storedRequest_of_buildWrite⟩⟩

theorem isIssue_eq_false_of_build {i : Instr} (hf : family i = .build) : isIssue i = false :=
  isIssue_eq_false_of_family hf nofun nofun

/-- Settles O29: of the results of a build and of an issue only the one with a packet is Ok. -/
theorem builtPacketIsRequestPacket : Obligations.BuiltPacketIsRequestPacket := by
  unfold Obligations.BuiltPacketIsRequestPacket
  intro i s t hi h hok
  rcases hi with hf | hi
  · obtain ⟨ports, henc, hbuild⟩ := exec_of_build_rid i hf
    obtain ⟨packet, hexec, hstored⟩ := hbuild s
    obtain ⟨-, rfl⟩ | ⟨-, -, rfl⟩ | ⟨p, -, hp, rfl⟩ := build_cases s t _ packet (hexec ▸ h)
    · simp at hok
    · simp at hok
    · refine ⟨rfl, ports.rid, (hstored p hp).request, ?_, ?_⟩
      · simp [isIssue_eq_false_of_build hf]
      · rintro - q hq
        rw [Event.issue.inj (henc.symm.trans hq)]
  · obtain ⟨-, rfl⟩ | ⟨-, rfl⟩ | ⟨p, e, -, hp, -, rfl⟩ := exec_issue_cases hi h
    · simp at hok
    · simp at hok
    · refine ⟨rfl, nextId s, hp.request, fun _ => ⟨rfl, rfl, rfl⟩, fun hf => ?_⟩
      simp [isIssue_eq_false_of_build hf] at hi

end Sys2Proof.Machine
end

section
/-! SUPPORT. Validation and extraction read no byte behind the advertised SCD (R100, R161, R166). -/

namespace Sys2Proof.Machine

section Trailing

variable {pkt : Bytes} (extra : Bytes)

/-- A header field of a packet is the same with bytes behind it (R90). -/
theorem be16_header_append (hhdr : 16 ≤ pkt.length) {off : Nat} (hoff : off ≤ 14) :
    be16 (pkt ++ extra) off = be16 pkt off := be16_append_left _ _ _ (by omega)

/-- Validation does not see what stands behind the advertised SCD (R161). -/
theorem validate_append (c : Config) (exp : BitVec 16) (isRead : Bool)
    (hhdr : 16 ≤ pkt.length) (hscd : 16 + (pktLen pkt).toNat ≤ pkt.length) :
    validate c (pkt ++ extra) exp isRead = validate c pkt exp isRead := by
  have hfield {off : Nat} (hoff : off ≤ 14) := be16_header_append extra hhdr hoff
  have hlen : (pkt ++ extra).length = pkt.length + extra.length := List.length_append
  have hpre : pktPreamble (pkt ++ extra) = pktPreamble pkt := hfield (by decide)
  have hccd : pktCcd (pkt ++ extra) = pktCcd pkt := hfield (by decide)
  have hsc : pktScd (pkt ++ extra) = pktScd pkt := hfield (by decide)
  have hword : pktWord8 (pkt ++ extra) = pktWord8 pkt := hfield (by decide)
  have hcmd : pktCommand (pkt ++ extra) = pktCommand pkt := hfield (by decide)
  have hadv : pktLen (pkt ++ extra) = pktLen pkt := hfield (by decide)
  have hrid : pktRid (pkt ++ extra) = pktRid pkt := hfield (by decide)
  have hccdRange : ccdRange (pkt ++ extra) = ccdRange pkt := slice_append_left _ _ _ _ hhdr
  have hscdRange : scdRange (pkt ++ extra) = scdRange pkt := by
    rw [scdRange, hadv, slice_append_left _ _ _ _ hscd, scdRange]
  have hwarn : warnFlag isRead (pkt ++ extra) exp = warnFlag isRead pkt exp := by
    rw [warnFlag, hrid, warnFlag]
  have hshort : ¬ (pkt ++ extra).length < hdrBytes ∧ ¬ pkt.length < hdrBytes := by
    simp only [hdrBytes]; omega
  have hcut : ¬ (pkt ++ extra).length < 16 + (pktLen pkt).toNat
      ∧ ¬ pkt.length < 16 + (pktLen pkt).toNat := by omega
  simp only [validate, hpre, hccd, hsc, hword, hcmd, hadv, hrid, hccdRange, hscdRange, hwarn,
    hshort, hcut]

theorem extractScalar_append (c : Config) (exp : BitVec 16) (w : Nat)
    (hhdr : 16 ≤ pkt.length) (hscd : 16 + (pktLen pkt).toNat ≤ pkt.length) :
    extractScalar c (pkt ++ extra) exp w = extractScalar c pkt exp w := by
  have hadv : pktLen (pkt ++ extra) = pktLen pkt := be16_header_append extra hhdr (by decide)
  unfold extractScalar
  rw [validate_append extra c exp true hhdr hscd, hadv]
  by_cases hw : (pktLen pkt).toNat < w
  · simp only [if_pos hw]
  · rw [memRead_append_left pkt extra 16 w (by omega)]

theorem extractBytes_append (c : Config) (exp cap : BitVec 16)
    (hhdr : 16 ≤ pkt.length) (hscd : 16 + (pktLen pkt).toNat ≤ pkt.length) :
    extractBytes c (pkt ++ extra) exp cap = extractBytes c pkt exp cap := by
  have hadv : pktLen (pkt ++ extra) = pktLen pkt := be16_header_append extra hhdr (by decide)
  have hcopy : slice (pkt ++ extra) 16 (16 + min (pktLen pkt).toNat cap.toNat)
      = slice pkt 16 (16 + min (pktLen pkt).toNat cap.toNat) :=
    slice_append_left _ _ _ _ (by omega)
  simp only [extractBytes, validate_append extra c exp true hhdr hscd, hadv, hcopy]

/-- Bytes behind a packet that change no result are inspected as the packet alone is, the whole being
within `RX_MAX` (R160). -/
theorem inspect_append (s : State) {r r' : ResultPorts} (hmax : (pkt ++ extra).length ≤ rxMax s.cfg)
    (hr : r = r') : inspect s (pkt ++ extra) r = inspect s pkt r' := by
  have hfits : pkt.length ≤ rxMax s.cfg := by rw [List.length_append] at hmax; omega
  rw [inspect_of_fits s _ r hmax, inspect_of_fits s _ r' hfits, hr]

end Trailing

/-- Settles O38: all eight are `inspect` of a result that ignores the added bytes. -/
theorem trailingBytesIgnored : Obligations.TrailingBytesIgnored := by
  unfold Obligations.TrailingBytesIgnored
  intro pkt extra rid cap s hhdr hscd hmax
  have hverdict (isRead : Bool) := congrArg (verdictResult rid)
    (validate_append extra s.cfg rid isRead hhdr hscd)
  have hscalar (w : Nat) := extractScalar_append extra s.cfg rid w hhdr hscd
  have hinspect {r r' : ResultPorts} (hr : r = r') := inspect_append extra s hmax hr
  exact ⟨hinspect (hverdict true), hinspect (hverdict false),
    hinspect (extractBytes_append extra s.cfg rid cap hhdr hscd), hinspect (hscalar 2),
    hinspect (hscalar 4), hinspect (hscalar 8), hinspect (hscalar 4), hinspect (hscalar 8)⟩

end Sys2Proof.Machine
end

section
/-! SUPPORT. A framed acknowledgement is acceptable (R101, R142, R151). -/

namespace Sys2Proof.Machine

/-- A framed packet with a clear error bit and an SCD within `MAX_PAYLOAD` meets every check of R161
but the request id, and carries the id it was framed with. -/
theorem acceptableAck_of_frame (c : Config) (status cmd rid : BitVec 16) (scd : Bytes)
    (hstatus : status.getLsbD 15 = false) (hscd : scd.length ≤ c.maxPayload.val) :
    ∃ p, frame status cmd rid scd = some p ∧ p.length = 16 + scd.length
      ∧ AcceptableAck c cmd p ∧ be16 p 14 = rid := by
  have hmax := c.maxPayload.isLt
  have hfield : (BitVec.ofNat 16 scd.length).toNat = scd.length := Nat.mod_eq_of_lt (by omega)
  refine ⟨_, frame_eq status cmd rid scd (by omega), packetBytes_length .., ?_,
    pktRid_packetBytes ..⟩
  rw [AcceptableAck, show be16 _ 12 = BitVec.ofNat 16 scd.length from pktLen_packetBytes .., hfield,
    show be16 _ 8 = status from pktWord8_packetBytes .., packetBytes_length]
  refine ⟨by omega, pktPreamble_packetBytes .., ?_, Nat.le_refl _, ?_, pktCommand_packetBytes ..,
    hscd, hstatus⟩
  · rw [slice_from_six _ _ _ _ _ _ _ _ _ 0, List.take_zero, List.append_nil]
    exact (checksum16_some _ (by simp)).trans (congrArg some (pktCcd_packetBytes ..).symm)
  · rw [slice_from_six, List.take_length]
    exact (checksum16_some _ (by simp; omega)).trans (congrArg some (pktScd_packetBytes ..).symm)

/-- Such a packet fits RXBUF and passes without a warning. -/
theorem inspect_of_frame (s : State) (status rid : BitVec 16) (scd : Bytes) (isRead : Bool)
    (hstatus : status.getLsbD 15 = false) (hscd : scd.length ≤ s.cfg.maxPayload.val) :
    ∃ p, frame status (ackCommand isRead) rid scd = some p
      ∧ inspect s p (verdictResult rid (validate s.cfg p rid isRead))
        = .next { s with out := portsOk } := by
  obtain ⟨p, hp, hlen, hack, hrid⟩ :=
    acceptableAck_of_frame s.cfg status (ackCommand isRead) rid scd hstatus hscd
  have hfits := payload_le_rxMax s.cfg scd.length hscd
  have hwarn : warnFlag isRead p rid = false := by
    rw [warnFlag, show pktRid p = rid from hrid, bne_self_eq_false, Bool.and_false]
  refine ⟨p, hp, ?_⟩
  rw [validate_of_acceptable s.cfg p rid isRead hack (fun _ => hrid), hwarn,
    inspect_of_fits s p _ (by omega)]
  rfl

/-- Settles O43, for a read and for a write acknowledgement. -/
theorem framedAckValidates : Obligations.FramedAckValidates := by
  unfold Obligations.FramedAckValidates
  intro s status rid scd hstatus hscd
  exact ⟨inspect_of_frame s status rid scd true hstatus hscd,
    inspect_of_frame s status rid scd false hstatus hscd⟩

end Sys2Proof.Machine
end

section
/-! SUPPORT. The results that each instruction can return, said once, and which of them leave a port at
zero (R83, R232, R240). -/

namespace Sys2Proof.Machine

/-- The operations that validate a write acknowledgement, for which `warn` is meaningful (R163). -/
def JudgesWriteAck (s : State) (i : Instr) : Prop :=
  (∃ p r, i = .valWr p r) ∨ (∃ p c, i = .sqAck p c) ∧ s.expect.kind = .ack

/-- The operations that copy a payload to `dout` (R183, R215). -/
def CopiesPayload (s : State) (i : Instr) : Prop :=
  (∃ p r c, i = .extB p r c) ∨ (∃ p c, i = .sqAck p c) ∧ s.expect.kind = .bytes

/-- The operations that return a number on `val` (R127, R182, R215). -/
def ReturnsValue (s : State) (i : Instr) : Prop :=
  i = .csGet ∨ (family i = .extract ∧ ∀ p r c, i ≠ .extB p r c)
    ∨ ((∃ p c, i = .sqAck p c) ∧ s.expect.kind ≠ .ack ∧ s.expect.kind ≠ .bytes)

/-- What an operation can show on the result ports: one constructor for each form of result, with the
operations that can return it where not all can. -/
inductive Answer (s : State) (i : Instr) : ResultPorts → Prop
  | refused (r : Reason) : Answer s i (refusedResult r)
  | error (kind : BitVec 12) (rid : BitVec 16) (c : Check) : Answer s i (errResult kind rid c)
  | ok : Answer s i okResult
  | registers (hi : i = .rdst) : Answer s i (stateResult s)
  | value (v : BitVec 64) (hi : ReturnsValue s i) : Answer s i (okVal v)
  | accepted (w : Bool) (hi : JudgesWriteAck s i) : Answer s i (okWarn w)
  | rejected (kind : BitVec 12) (rid : BitVec 16) (c : Check) (w : Bool)
    (hi : JudgesWriteAck s i) : Answer s i (errWarn kind rid c w)
  | copied (d : Bytes) (olen adv : BitVec 16) (hi : CopiesPayload s i) :
    Answer s i (okDout d olen adv)
  | cut (d : Bytes) (olen adv : BitVec 16) (hi : CopiesPayload s i) :
    Answer s i (truncDout d olen adv)
  | built (p : Bytes) (hf : family i = .build) : Answer s i (okTx p)
  | issued (p : Bytes) (rid : BitVec 16) (drain : Bool) (hi : isIssue i = true) :
    Answer s i (okIssue p rid drain)
  | unissued (rid : BitVec 16) (hi : isIssue i = true) : Answer s i (errIssue rid)

/-! ## Every operation returns one of them -/

section Operations

variable {s t : State} {i : Instr}

/-- A read acknowledgement is judged without a warning (R163, R164). -/
theorem answer_of_readVerdict (c : Config) (pkt : Bytes) (exp : BitVec 16) :
    Answer s i (verdictResult exp (validate c pkt exp true)) := by
  obtain ⟨w, hv, rfl⟩ | ⟨kind, check, w, hv, rfl⟩ := validate_read_warn c pkt exp
  · rw [hv]; exact .ok
  · rw [hv]; exact .error kind exp check

theorem answer_of_writeVerdict (c : Config) (pkt : Bytes) (exp : BitVec 16)
    (hi : JudgesWriteAck s i) : Answer s i (verdictResult exp (validate c pkt exp false)) := by
  obtain ⟨w, hv⟩ | ⟨kind, check, w, hv, -⟩ := verdictResult_cases c pkt exp false
  · rw [hv]; exact .accepted w hi
  · rw [hv]; exact .rejected kind exp check w hi

theorem answer_of_extractScalar (c : Config) (pkt : Bytes) (exp : BitVec 16) (w : Nat)
    (hi : ReturnsValue s i) : Answer s i (extractScalar c pkt exp w) := by
  obtain ⟨v, hr⟩ | ⟨kind, check, hr, -⟩ := extractScalar_cases c pkt exp w
  · rw [hr]; exact .value v hi
  · rw [hr]; exact .error kind exp check

theorem answer_of_extractBytes (c : Config) (pkt : Bytes) (exp cap : BitVec 16)
    (hi : CopiesPayload s i) : Answer s i (extractBytes c pkt exp cap) := by
  obtain ⟨d, olen, adv, hr⟩ | ⟨d, olen, adv, hr⟩ | ⟨kind, check, hr, -⟩ :=
    extractBytes_cases c pkt exp cap
  · rw [hr]; exact .copied d olen adv hi
  · rw [hr]; exact .cut d olen adv hi
  · rw [hr]; exact .error kind exp check

/-- VAL.* and EXT.* inspect the packet for one of the results (R164, R165, R183 to R188). -/
theorem exec_of_codec_answer (i : Instr) (s : State)
    (hf : family i = .validate ∨ family i = .extract) :
    ∃ pkt r, exec i s = inspect s pkt r ∧ Answer s i r := by
  have hscalar (c pkt rid w) (hf : family i = .extract) (hi : ∀ p r c, i ≠ .extB p r c) :
      Answer s i (extractScalar c pkt rid w) :=
    answer_of_extractScalar c pkt rid w (.inr (.inl ⟨hf, hi⟩))
  match i, hf with
  | .valRd _ _, _ => exact ⟨_, _, rfl, answer_of_readVerdict ..⟩
  | .valWr _ _, _ => exact ⟨_, _, rfl, answer_of_writeVerdict _ _ _ (.inl ⟨_, _, rfl⟩)⟩
  | .extB _ _ _, _ => exact ⟨_, _, rfl, answer_of_extractBytes _ _ _ _ (.inl ⟨_, _, _, rfl⟩)⟩
  | .extU16 _ _, _ => exact ⟨_, _, rfl, hscalar _ _ _ 2 rfl nofun⟩
  | .extU32 _ _, _ => exact ⟨_, _, rfl, hscalar _ _ _ 4 rfl nofun⟩
  | .extU64 _ _, _ => exact ⟨_, _, rfl, hscalar _ _ _ 8 rfl nofun⟩
  | .extF32 _ _, _ => exact ⟨_, _, rfl, hscalar _ _ _ 4 rfl nofun⟩
  | .extF64 _ _, _ => exact ⟨_, _, rfl, hscalar _ _ _ 8 rfl nofun⟩

theorem answer_of_codec (hf : family i = .validate ∨ family i = .extract)
    (h : exec i s = .next t) : Answer s i t.out := by
  obtain ⟨pkt, r, hexec, hr⟩ := exec_of_codec_answer i s hf
  obtain ⟨-, rfl⟩ | ⟨-, rfl⟩ := inspect_cases s t pkt r (hexec ▸ h)
  · exact .refused _
  · exact hr

theorem answer_of_build (hf : family i = .build) (h : exec i s = .next t) : Answer s i t.out := by
  obtain ⟨rid, packet, hexec, -⟩ := exec_of_build i s hf
  obtain ⟨-, rfl⟩ | ⟨-, -, rfl⟩ | ⟨p, -, -, rfl⟩ := build_cases s t rid packet (hexec ▸ h)
  · exact .refused _
  · exact .error _ _ _
  · exact .built p hf

theorem answer_of_issue (hi : isIssue i = true) (h : exec i s = .next t) : Answer s i t.out := by
  obtain ⟨-, rfl⟩ | ⟨-, rfl⟩ | ⟨p, _, -, -, -, rfl⟩ := exec_issue_cases hi h
  · exact .refused _
  · exact .unissued _ hi
  · exact .issued p _ _ hi

theorem answer_of_timeout (h : timeout s = .next t) : Answer s i t.out := by
  obtain ⟨-, rfl⟩ | ⟨-, rfl⟩ := timeout_cases s t h
  · exact .refused _
  · exact .error _ _ _

/-- What SQ.ACK finds in a packet is a result of the expected kind (R215). -/
theorem answer_of_judge {pkt : Bytes} {cap : BitVec 16} {r : ResultPorts}
    (h : judge s pkt cap = some r) : Answer s (.sqAck pkt cap) r := by
  obtain ⟨hack, rfl⟩ | ⟨hbytes, rfl⟩ | ⟨w, -, hack, hbytes, rfl⟩ := judge_cases s pkt cap r h
  · exact answer_of_writeVerdict _ _ _ (.inr ⟨⟨_, _, rfl⟩, hack⟩)
  · exact answer_of_extractBytes _ _ _ _ (.inr ⟨⟨_, _, rfl⟩, hbytes⟩)
  · exact answer_of_extractScalar _ _ _ w (.inr (.inr ⟨⟨_, _, rfl⟩, hack, hbytes⟩))

theorem answer_of_acknowledge {pkt : Bytes} {cap : BitVec 16}
    (h : acknowledge s pkt cap = .next t) : Answer s (.sqAck pkt cap) t.out := by
  obtain ⟨-, rfl⟩ | ⟨-, -, rfl⟩ | ⟨-, -, htmo⟩ | ⟨r, -, -, -, hr, hdone⟩ :=
    acknowledge_cases s t pkt cap h
  · exact .refused _
  · exact .refused _
  · exact answer_of_timeout htmo
  · obtain ⟨-, rfl⟩ | ⟨-, rfl⟩ := complete_cases s t r hdone
    · exact answer_of_judge hr
    · exact answer_of_judge hr

theorem answer_of_csPut {x : Byte} (h : execCsPut x s = .next t) : Answer s i t.out := by
  unfold execCsPut at h
  split at h
  · obtain rfl := (refuse_next s t _).mp h
    exact .refused _
  · obtain rfl := (done_next _ t _).mp h
    exact .ok

/-- Every operation that answers a next state shows one of the results on the ports. A packet row is
no operation and leaves the ports. -/
theorem exec_answer (hpacket : family i ≠ .packet) (h : exec i s = .next t) :
    Answer s i t.out := by
  cases hf : family i with
  | control =>
    match i, hf with
    | .srst, _ => obtain rfl := (done_next _ t _).mp h; exact .ok
    | .wrtmo _, _ => obtain rfl := (done_next _ t _).mp h; exact .ok
    | .rdst, _ => obtain rfl := (done_next _ t _).mp h; exact .registers rfl
  | checksum =>
    match i, hf with
    | .csClr, _ => obtain rfl := (done_next _ t _).mp h; exact .ok
    | .csPut _, _ => exact answer_of_csPut h
    | .csGet, _ => obtain rfl := (done_next _ t _).mp h; exact .value _ (.inl rfl)
  | build => exact answer_of_build hf h
  | validate => exact answer_of_codec (.inl hf) h
  | extract => exact answer_of_codec (.inr hf) h
  | issueRead => exact answer_of_issue (by simp [isIssue, hf]) h
  | issueWrite => exact answer_of_issue (by simp [isIssue, hf]) h
  | complete =>
    match i, hf with
    | .sqAck _ _, _ => exact answer_of_acknowledge h
    | .sqTmo, _ => exact answer_of_timeout h
  | packet => exact absurd hf hpacket

end Operations

/-! ## The ports that a result leaves at zero, port by port (R83) -/

namespace Answer

variable {s : State} {i : Instr} {r : ResultPorts}

theorem error_ports_zero (h : Answer s i r) (hrc : r.rc ≠ 1) :
    r.kind = 0 ∧ r.erid = 0 ∧ r.step = 0 := by
  cases h with
  | error => exact absurd rfl hrc
  | rejected => exact absurd rfl hrc
  | unissued => exact absurd rfl hrc
  | _ => exact ⟨rfl, rfl, rfl⟩

theorem reason_zero (h : Answer s i r) (hrc : r.rc ≠ 3) : r.reason = 0 := by
  cases h with
  | refused => exact absurd rfl hrc
  | _ => rfl

theorem warn_zero (h : Answer s i r) (hi : ¬ JudgesWriteAck s i) : r.warn = 0 := by
  cases h with
  | accepted _ hj => exact absurd hj hi
  | rejected _ _ _ _ hj => exact absurd hj hi
  | _ => rfl

theorem drain_zero (h : Answer s i r) (hi : isIssue i = false ∨ r.rc ≠ 0) : r.drain = 0 := by
  cases h with
  | issued _ _ _ hissue => exact absurd hissue (by simpa using hi.resolve_right (· rfl))
  | _ => rfl

theorem orid_zero (h : Answer s i r) (hi : isIssue i = false ∨ r.rc ≠ 0 ∧ r.rc ≠ 1) :
    r.orid = 0 := by
  cases h with
  | issued _ _ _ hissue => exact absurd hissue (by simpa using hi.resolve_right (·.1 rfl))
  | unissued _ hissue => exact absurd hissue (by simpa using hi.resolve_right (·.2 rfl))
  | _ => rfl

theorem returnsValue_of_val (h : Answer s i r) (hval : r.val ≠ 0) :
    r.rc = 0 ∧ ReturnsValue s i := by
  cases h with
  | value _ hi => exact ⟨rfl, hi⟩
  | _ => exact absurd rfl hval

theorem payload_ports_zero (h : Answer s i r) (hi : ¬ CopiesPayload s i ∨ r.rc ≠ 0 ∧ r.rc ≠ 2) :
    r.dout = [] ∧ r.olen = 0 ∧ r.adv = 0 := by
  cases h with
  | copied _ _ _ hc => exact absurd hc (hi.resolve_right (·.1 rfl))
  | cut _ _ _ hc => exact absurd hc (hi.resolve_right (·.2 rfl))
  | _ => exact ⟨rfl, rfl, rfl⟩

theorem packet_ports_zero (h : Answer s i r)
    (hi : r.rc ≠ 0 ∨ (family i ≠ .build ∧ isIssue i = false ∧ i ≠ .rdst)) :
    r.tx = [] ∧ r.txlen = 0 := by
  cases h with
  | registers hrdst =>
    obtain ⟨-, -, hne⟩ := hi.resolve_left (· rfl)
    exact absurd hrdst hne
  | built _ hf =>
    obtain ⟨hne, -, -⟩ := hi.resolve_left (· rfl)
    exact absurd hf hne
  | issued _ _ _ hissue =>
    obtain ⟨-, hnot, -⟩ := hi.resolve_left (· rfl)
    exact absurd hissue (by simp [hnot])
  | _ => exact ⟨rfl, rfl⟩

theorem register_ports_zero (h : Answer s i r) (hi : i ≠ .rdst) :
    r.reqid = 0 ∧ r.busy = 0 ∧ r.rsync = 0 ∧ r.ekind = 0 ∧ r.ecount = 0
    ∧ r.elen = 0 ∧ r.tmo = 0 ∧ r.csacc = 0 ∧ r.csodd = 0 ∧ r.cscnt = 0 := by
  cases h with
  | registers hrdst => exact absurd hrdst hi
  | _ => exact ⟨rfl, rfl, rfl, rfl, rfl, rfl, rfl, rfl, rfl, rfl⟩

end Answer

/-- Settles O55, port by port over the results that the operation can return. -/
theorem meaninglessPortsAreZero : Obligations.MeaninglessPortsAreZero := by
  unfold Obligations.MeaninglessPortsAreZero
  intro i s t hpacket h
  have hanswer := exec_answer hpacket h
  have hjudge (hval : ∀ p r, i ≠ .valWr p r)
      (hack : (∀ p c, i ≠ .sqAck p c) ∨ s.expect.kind ≠ .ack) : ¬ JudgesWriteAck s i := by
    rintro (⟨p, r, hi⟩ | ⟨⟨p, c, hi⟩, hkind⟩)
    · exact hval p r hi
    · exact hack.elim (· p c hi) (· hkind)
  have hcopy (hext : ∀ p r c, i ≠ .extB p r c)
      (hack : (∀ p c, i ≠ .sqAck p c) ∨ s.expect.kind ≠ .bytes) : ¬ CopiesPayload s i := by
    rintro (⟨p, r, c, hi⟩ | ⟨⟨p, c, hi⟩, hkind⟩)
    · exact hext p r c hi
    · exact hack.elim (· p c hi) (· hkind)
  exact ⟨hanswer.error_ports_zero, hanswer.reason_zero,
    fun hval hack => hanswer.warn_zero (hjudge hval hack), hanswer.drain_zero, hanswer.orid_zero,
    hanswer.returnsValue_of_val,
    fun hext hack => hanswer.payload_ports_zero (.inl (hcopy hext hack)),
    fun hok htrunc => hanswer.payload_ports_zero (.inr ⟨hok, htrunc⟩),
    hanswer.packet_ports_zero, hanswer.register_ports_zero⟩

end Sys2Proof.Machine
end

section
/-! SUPPORT. The word sum over chunks, and what folding and complementing it can give (R120, R123,
R124, R127). -/

namespace Sys2Proof.Machine

/-- The checksum sees of a sequence its word sum, and whether it is too long. -/
theorem checksum16_congr {a b : Bytes} (hlen : a.length ≤ 65534 ↔ b.length ≤ 65534)
    (hsum : sumWords a = sumWords b) : checksum16 a = checksum16 b :=
  if_congr hlen (congrArg (fun n => some (finish n)) hsum) rfl

theorem sumWords_flatten_append (chunks : List Bytes) (last : Bytes)
    (heven : ∀ c ∈ chunks, c.length % 2 = 0) :
    sumWords (chunks.flatten ++ last) = (chunks.map sumWords).sum + sumWords last := by
  induction chunks with
  | nil => simp
  | cons c rest ih =>
    have ⟨hc, hrest⟩ := List.forall_mem_cons.mp heven
    rw [List.flatten_cons, List.append_assoc, sumWords_append _ _ hc, ih hrest, List.map_cons,
      List.sum_cons, Nat.add_assoc]

/-- A zero byte at the end adds nothing, whether it fills a word or begins one. -/
theorem sumWords_append_zero (b : Bytes) : sumWords (b ++ [0]) = sumWords b := by
  induction b using sumWords.induct with
  | case1 => rfl
  | case2 x => simp [sumWords_cons]
  | case3 x y rest ih => rw [List.cons_append, List.cons_append, sumWords_cons, ih, sumWords_cons]

/-- Settles O16, by the sum of an append and the zero byte that adds nothing. -/
theorem checksumChunksAndPadding : Obligations.ChecksumChunksAndPadding := by
  unfold Obligations.ChecksumChunksAndPadding
  constructor
  · intro chunks last heven hlen
    rw [checksum16_some _ hlen, sumWords_flatten_append chunks last heven]
  · intro b hodd
    refine checksum16_congr ?_ (sumWords_append_zero b).symm
    rw [List.length_append, List.length_singleton]
    omega

theorem sumWords_eq_zero_iff (b : Bytes) : sumWords b = 0 ↔ ∀ x ∈ b, x = 0#8 := by
  have hzero (x : Byte) : x.toNat = 0 ↔ x = 0#8 := (BitVec.toNat_inj (y := 0#8))
  induction b using sumWords.induct with
  | case1 => simp
  | case2 x => simp [hzero]
  | case3 x y rest ih => simp [sumWords_cons, ih, hzero, and_assoc]

/-- `finish` complements what folding leaves, and nothing is lost in 16 bits (R120). -/
theorem finish_eq_iff (acc : Nat) (v : BitVec 16) (h : acc < 2 ^ 32) :
    finish acc = v ↔ foldCarry 2 acc = (~~~ v).toNat := by
  have hfold := Nat.mod_eq_of_lt (foldCarry_lt acc h)
  rw [finish, BitVec.not_eq_comm, ← BitVec.toNat_inj, BitVec.toNat_ofNat, hfold, eq_comm]

theorem finish_eq_ones_iff (acc : Nat) (h : acc < 2 ^ 32) : finish acc = 0xFFFF#16 ↔ acc = 0 := by
  rw [finish_eq_iff acc _ h, ← foldCarry_eq_zero 2 acc]
  rfl

theorem finish_eq_zero_iff (acc : Nat) (h : acc < 2 ^ 32) :
    finish acc = 0x0000#16 ↔ acc ≠ 0 ∧ 65535 ∣ acc := by
  have hlt := foldCarry_lt acc h
  have hmod := foldCarry_mod 2 acc
  have hzero := foldCarry_eq_zero 2 acc
  rw [finish_eq_iff acc _ h, show (~~~ 0x0000#16).toNat = 65535 from rfl]
  omega

/-- Of a non-zero sum `finish` sees the value modulo 0xFFFF alone. -/
theorem finish_congr {m n : Nat} (hm : m < 2 ^ 32) (hn : n < 2 ^ 32) (hm0 : m ≠ 0) (hn0 : n ≠ 0)
    (h : m ≡ n [MOD 65535]) : finish m = finish n := by
  have hltm := foldCarry_lt m hm
  have hltn := foldCarry_lt n hn
  have hmodm := foldCarry_mod 2 m
  have hmodn := foldCarry_mod 2 n
  have hzerom := foldCarry_eq_zero 2 m
  have hzeron := foldCarry_eq_zero 2 n
  have hfold : foldCarry 2 m = foldCarry 2 n := by
    unfold Nat.ModEq at h
    omega
  rw [finish, finish, hfold]

/-- Settles O17: the sum is zero, or folds to 0xFFFF. -/
theorem checksumExtremes : Obligations.ChecksumExtremes := by
  unfold Obligations.ChecksumExtremes
  intro b hlen
  have hsum : sumWords b < 2 ^ 32 := Nat.lt_trans (sumWords_lt b hlen) (by decide)
  rw [checksum16_some b hlen, Option.some_inj, Option.some_inj, finish_eq_ones_iff _ hsum,
    sumWords_eq_zero_iff]
  exact ⟨Iff.rfl, finish_eq_zero_iff _ hsum⟩

/-- A word at an even offset adds its own value, wherever it stands. -/
theorem sumWords_word_between (a c : Bytes) (h l : Byte) (heven : a.length % 2 = 0) :
    sumWords (a ++ [h, l] ++ c) = h.toNat * 256 + l.toNat + (sumWords a + sumWords c) := by
  rw [List.append_assoc, sumWords_append a _ heven, List.cons_append, List.cons_append,
    List.nil_append, sumWords_cons]
  omega

/-- Settles O18: both words add their values to the sum on either side of the exchange. -/
theorem checksumBlindToWordSwap : Obligations.ChecksumBlindToWordSwap := by
  unfold Obligations.ChecksumBlindToWordSwap
  intro a m c h1 l1 h2 l2 ha hm
  have hbefore (h l : Byte) : (a ++ [h, l] ++ m).length % 2 = 0 := by simp; omega
  refine checksum16_congr (by simp) ?_
  rw [sumWords_word_between _ c h2 l2 (hbefore h1 l1), sumWords_word_between a m h1 l1 ha,
    sumWords_word_between _ c h1 l1 (hbefore h2 l2), sumWords_word_between a m h2 l2 ha]
  omega

/-- Settles O21, by what is known of the folded accumulator. -/
theorem csGetFoldsAccumulator : Obligations.CsGetFoldsAccumulator := by
  unfold Obligations.CsGetFoldsAccumulator
  intro s
  exact ⟨foldCarry 2 s.csAcc.toNat, foldCarry_lt _ s.csAcc.isLt, foldCarry_mod 2 _,
    (foldCarry_eq_zero 2 _).trans (BitVec.toNat_inj (y := 0#32)), rfl⟩

end Sys2Proof.Machine
end

section
/-! SUPPORT. The byte-serial engine: its three operations, and the run that computes `checksum16` (R125
to R128). -/

namespace Sys2Proof.Machine

/-- Settles O19: it is what CS.CLR is defined to do. -/
theorem csClrClears : Obligations.CsClrClears := by
  unfold Obligations.CsClrClears
  intro s
  rfl

theorem exec_csPut_of_eq (x : Byte) (s : State) (h : s.csCnt.toNat = csMaxLen) :
    exec (.csPut x) s = .next { s with out := portsRefused 4 } :=
  if_pos h

theorem exec_csPut_of_ne (x : Byte) (s : State) (h : s.csCnt.toNat ≠ csMaxLen) :
    exec (.csPut x) s = .next ((s.putCs x).respond okResult) :=
  if_neg h

/-- Settles O20: the byte after the 65534th is refused, any other adds what it counts at an even or an
odd place. -/
theorem csPutAddsByte : Obligations.CsPutAddsByte := by
  unfold Obligations.CsPutAddsByte
  intro x s
  have hfull : s.csCnt.toNat = csMaxLen ↔ s.csCnt = 65534#16 := BitVec.toNat_inj (y := 65534#16)
  have heven : putAddend false x = BitVec.ofNat 32 (x.toNat * 256) := putAddend_parity 0 x
  have hodd : putAddend true x = BitVec.ofNat 32 x.toNat := putAddend_parity 1 x
  refine ⟨fun h => exec_csPut_of_eq x s (hfull.mpr h), fun h hplace => ?_, fun h hplace => ?_⟩
  · rw [exec_csPut_of_ne x s (mt hfull.mp h), State.putCs, hplace, heven]
    rfl
  · rw [exec_csPut_of_ne x s (mt hfull.mp h), State.putCs, hplace, hodd]
    rfl

/-- A run and one instruction after it. -/
theorem execAll_append_singleton {l : List Instr} {s t : State} (i : Instr)
    (h : execAll l s = .next t) : execAll (l ++ [i]) s = exec i t := by
  induction l generalizing s with
  | nil =>
    obtain rfl := Host.Outcome.next.inj h
    rw [List.nil_append, execAll]
    cases exec i s <;> rfl
  | cons j rest ih =>
    rw [execAll] at h
    rw [List.cons_append, execAll]
    cases hj : exec j s with
    | next u => rw [hj] at h; exact ih h
    | fault r => rw [hj] at h; cases h
    | refused r => rw [hj] at h; cases h

/-- Settles O23: the puts leave the word sum in `CS.ACC`, and CS.GET finishes it as `checksum16`
does. -/
theorem byteSerialComputesChecksum : Obligations.ByteSerialComputesChecksum := by
  unfold Obligations.ByteSerialComputesChecksum
  intro s b hlen
  have hsum := sumWords_lt b hlen
  have hacc : (BitVec.ofNat 32 (placeSum b)).toNat = sumWords b := by
    rw [placeSum_eq_sumWords]
    exact Nat.mod_eq_of_lt (by omega)
  obtain ⟨r, hputs⟩ := execAll_csClr_csPuts b s hlen
  refine ⟨_, checksum16_some b hlen, (execAll_append_singleton .csGet hputs).trans ?_⟩
  rw [← hacc]
  rfl

end Sys2Proof.Machine
end

section
/-! SUPPORT. The shared operations, one equation per case (R140, R141, R160, R200, R201, R215 to R217,
R245). -/

namespace Sys2Proof.Machine

variable (s : State)

theorem build_of_busy (rid : BitVec 16) (packet : Option Bytes) (h : s.busy = true) :
    build s rid packet = .next { s with out := portsRefused 2 } :=
  if_pos h

theorem build_of_no_packet (rid : BitVec 16) (h : s.busy = false) :
    build s rid none = .next { s with out := portsErr 2 rid 10 } :=
  if_neg (ne_true_of_eq_false h)

theorem issue_of_busy (packet : BitVec 16 → Option Bytes) (e : Expect) (h : s.busy = true) :
    issue s packet e = .next { s with out := portsRefused 2 } :=
  if_pos h

theorem issue_of_idle (packet : BitVec 16 → Option Bytes) (e : Expect) (h : s.busy = false) :
    issue s packet e = (packet (nextId s)).elim (done s.bumpId (errIssue (nextId s)))
      fun p => done (s.bumpId.openRequest p e) (okIssue p (nextId s) (drainFlag s.rsync)) := by
  rw [issue, if_neg (ne_true_of_eq_false h)]
  cases packet (nextId s) <;> rfl

theorem inspect_of_long (pkt : Bytes) (r : ResultPorts) (h : rxMax s.cfg < pkt.length) :
    inspect s pkt r = .next { s with out := portsRefused 5 } :=
  if_pos h

theorem timeout_of_busy (h : s.busy = true) :
    timeout s = done s.timeoutEntry (errResult s.cfg.codes.msgTimeout s.reqid .timeout) :=
  if_pos h

theorem timeout_of_idle (h : s.busy = false) :
    timeout s = .next { s with out := portsRefused 3 } :=
  if_neg (ne_true_of_eq_false h)

theorem acknowledge_of_idle (pkt : Bytes) (cap : BitVec 16) (h : s.busy = false) :
    acknowledge s pkt cap = .next { s with out := portsRefused 3 } :=
  if_pos h

theorem acknowledge_of_long (pkt : Bytes) (cap : BitVec 16) (hbusy : s.busy = true)
    (h : rxMax s.cfg < pkt.length) :
    acknowledge s pkt cap = .next { s with out := portsRefused 5 } := by
  rw [acknowledge, if_neg (by simp [hbusy]), if_pos h]
  rfl

theorem acknowledge_of_empty (cap : BitVec 16) (hbusy : s.busy = true) :
    acknowledge s [] cap = timeout s := by
  rw [acknowledge, if_neg (by simp [hbusy]), if_neg (by simp), if_pos rfl]

theorem acknowledge_of_fits (pkt : Bytes) (cap : BitVec 16) (hbusy : s.busy = true)
    (h : pkt.length ≤ rxMax s.cfg) (hne : pkt ≠ []) :
    acknowledge s pkt cap = (judge s pkt cap).elim (.fault .expectNone) (complete s) := by
  rw [acknowledge, if_neg (by simp [hbusy]), if_neg (Nat.not_lt.mpr h), if_neg hne]
  cases judge s pkt cap <;> rfl

end Sys2Proof.Machine
end

section
/-! SUPPORT. The checksum registers and the other families do not see one another (R129). -/

namespace Sys2Proof.Machine

/-- The state with other values in the checksum registers. -/
def State.withCs (s : State) (a : BitVec 32) (o : Bool) (c : BitVec 16) : State :=
  { s with csAcc := a, csOdd := o, csCnt := c }

section WithCs

variable (s : State) (a : BitVec 32) (o : Bool) (c : BitVec 16)

@[simp] theorem State.withCs_cfg : (s.withCs a o c).cfg = s.cfg := rfl
@[simp] theorem State.withCs_draws : (s.withCs a o c).draws = s.draws := rfl
@[simp] theorem State.withCs_self : s.withCs s.csAcc s.csOdd s.csCnt = s := rfl

end WithCs

/-- An operation to which other values in the checksum registers make no difference, except that they
stand in the next state. -/
def BlindToCs (f : State → Out) : Prop :=
  ∀ (s : State) (a : BitVec 32) (o : Bool) (c : BitVec 16),
    f (s.withCs a o c) = mapNext (fun t => t.withCs a o c) (f s)

section SharedOperations

variable (s : State) (a : BitVec 32) (o : Bool) (c : BitVec 16)

theorem build_withCs (rid : BitVec 16) (packet : Option Bytes) :
    build (s.withCs a o c) rid packet = mapNext (fun t => t.withCs a o c) (build s rid packet) := by
  cases hbusy : s.busy with
  | true =>
    rw [build_of_busy s rid packet hbusy, build_of_busy (s.withCs a o c) rid packet hbusy]
    rfl
  | false =>
    cases packet with
    | none =>
      rw [build_of_no_packet s rid hbusy, build_of_no_packet (s.withCs a o c) rid hbusy]
      rfl
    | some p =>
      rw [build_of_packet s rid p hbusy, build_of_packet (s.withCs a o c) rid p hbusy]
      rfl

theorem issue_withCs (packet : BitVec 16 → Option Bytes) (e : Expect) :
    issue (s.withCs a o c) packet e = mapNext (fun t => t.withCs a o c) (issue s packet e) := by
  cases hbusy : s.busy with
  | true =>
    rw [issue_of_busy s packet e hbusy, issue_of_busy (s.withCs a o c) packet e hbusy]
    rfl
  | false =>
    rw [issue_of_idle s packet e hbusy, issue_of_idle (s.withCs a o c) packet e hbusy,
      show nextId (s.withCs a o c) = nextId s from rfl]
    cases packet (nextId s) <;> rfl

theorem inspect_withCs (pkt : Bytes) (r : ResultPorts) :
    inspect (s.withCs a o c) pkt r = mapNext (fun t => t.withCs a o c) (inspect s pkt r) := by
  rcases Nat.lt_or_ge (rxMax s.cfg) pkt.length with hlong | hfits
  · rw [inspect_of_long s pkt r hlong, inspect_of_long (s.withCs a o c) pkt r hlong]
    rfl
  · rw [inspect_of_fits s pkt r hfits, inspect_of_fits (s.withCs a o c) pkt r hfits]
    rfl

theorem timeout_withCs :
    timeout (s.withCs a o c) = mapNext (fun t => t.withCs a o c) (timeout s) := by
  cases hbusy : s.busy with
  | true =>
    rw [timeout_of_busy s hbusy, timeout_of_busy (s.withCs a o c) hbusy, State.timeoutEntry_eq,
      State.timeoutEntry_eq]
    rfl
  | false =>
    rw [timeout_of_idle s hbusy, timeout_of_idle (s.withCs a o c) hbusy]
    rfl

theorem complete_withCs (r : ResultPorts) :
    complete (s.withCs a o c) r = mapNext (fun t => t.withCs a o c) (complete s r) := by
  unfold complete
  split <;> rfl

theorem acknowledge_withCs (pkt : Bytes) (cap : BitVec 16) :
    acknowledge (s.withCs a o c) pkt cap
      = mapNext (fun t => t.withCs a o c) (acknowledge s pkt cap) := by
  cases hbusy : s.busy with
  | false =>
    rw [acknowledge_of_idle s pkt cap hbusy, acknowledge_of_idle (s.withCs a o c) pkt cap hbusy]
    rfl
  | true =>
    rcases Nat.lt_or_ge (rxMax s.cfg) pkt.length with hlong | hfits
    · rw [acknowledge_of_long s pkt cap hbusy hlong,
        acknowledge_of_long (s.withCs a o c) pkt cap hbusy hlong]
      rfl
    · by_cases hempty : pkt = []
      · subst hempty
        rw [acknowledge_of_empty s cap hbusy, acknowledge_of_empty (s.withCs a o c) cap hbusy,
          timeout_withCs]
      · rw [acknowledge_of_fits s pkt cap hbusy hfits hempty,
          acknowledge_of_fits (s.withCs a o c) pkt cap hbusy hfits hempty,
          show judge (s.withCs a o c) pkt cap = judge s pkt cap from rfl]
        cases judge s pkt cap with
        | none => rfl
        | some r => exact complete_withCs s a o c r

end SharedOperations

/-- What an instruction of the codec, of the sequencer or of the packet rows does, it does by a shared
operation, to operands that are the same whatever the checksum registers hold. -/
theorem exec_blindToCs (i : Instr) (hchecksum : family i ≠ .checksum)
    (hcontrol : family i ≠ .control) : BlindToCs (exec i) := by
  intro s a o c
  match i with
  | .srst | .wrtmo _ | .rdst => exact absurd rfl hcontrol
  | .csClr | .csPut _ | .csGet => exact absurd rfl hchecksum
  | .bldRd .. | .bldWrB .. | .bldWrU16 .. | .bldWrU32 .. | .bldWrU64 .. | .bldWrF32 ..
  | .bldWrF64 .. =>
    simp only [exec, execBldRd, execBldWrB, execBldWrU16, execBldWrU32, execBldWrU64, execBldWrF32,
      execBldWrF64, build_withCs, State.withCs_cfg, State.withCs_draws]
  | .valRd .. | .valWr .. | .extB .. | .extU16 .. | .extU32 .. | .extU64 .. | .extF32 ..
  | .extF64 .. => exact inspect_withCs s a o c _ _
  | .sqRdB .. | .sqRdU16 .. | .sqRdU32 .. | .sqRdU64 .. | .sqRdF32 .. | .sqRdF64 .. | .sqWrB ..
  | .sqWrU16 .. | .sqWrU32 .. | .sqWrU64 .. | .sqWrF32 .. | .sqWrF64 .. =>
    simp only [exec, execSqRdB, execSqRdU16, execSqRdU32, execSqRdU64, execSqRdF32, execSqRdF64,
      execSqWrB, execSqWrU16, execSqWrU32, execSqWrU64, execSqWrF32, execSqWrF64, issue_withCs,
      State.withCs_cfg, State.withCs_draws]
  | .sqAck pkt cap => exact acknowledge_withCs s a o c pkt cap
  | .sqTmo => exact timeout_withCs s a o c
  | .pktReadmemReq .. | .pktWritememReq .. | .pktReadmemAck .. | .pktWritememAck ..
  | .pktPendingAck .. => rfl

/-- What is blind to the checksum registers does not write them either: put back the values that they
had, and the next state is the same. -/
theorem BlindToCs.keeps_cs {f : State → Out} (hf : BlindToCs f) {s t : State} (h : f s = .next t) :
    t.csAcc = s.csAcc ∧ t.csOdd = s.csOdd ∧ t.csCnt = s.csCnt := by
  have hback := hf s s.csAcc s.csOdd s.csCnt
  rw [State.withCs_self, h] at hback
  have ht : t = t.withCs s.csAcc s.csOdd s.csCnt := Host.Outcome.next.inj hback
  exact ⟨(congrArg State.csAcc ht :), (congrArg State.csOdd ht :), (congrArg State.csCnt ht :)⟩

/-- An operation of the checksum family answers from the three registers alone, and writes nothing
but them and the ports. -/
theorem exec_checksum_of_cs_eq (i : Instr) (s u : State) (hf : family i = .checksum)
    (hacc : s.csAcc = u.csAcc) (hodd : s.csOdd = u.csOdd) (hcnt : s.csCnt = u.csCnt) :
    ∃ a o c r, exec i s = .next ((s.withCs a o c).respond r)
      ∧ exec i u = .next ((u.withCs a o c).respond r) := by
  match i, hf with
  | .csClr, _ => exact ⟨0, false, 0, okResult, rfl, rfl⟩
  | .csPut x, _ =>
    by_cases hfull : s.csCnt.toNat = csMaxLen
    · refine ⟨s.csAcc, s.csOdd, s.csCnt, refusedResult .csOverlen, exec_csPut_of_eq x s hfull, ?_⟩
      rw [exec_csPut_of_eq x u (hcnt ▸ hfull), hacc, hodd, hcnt]
      rfl
    · refine ⟨s.csAcc + putAddend s.csOdd x, oddNext s.csOdd, s.csCnt + 1, okResult,
        exec_csPut_of_ne x s hfull, ?_⟩
      rw [exec_csPut_of_ne x u (hcnt ▸ hfull), hacc, hodd, hcnt]
      rfl
  | .csGet, _ =>
    refine ⟨s.csAcc, s.csOdd, s.csCnt, okVal ((finish s.csAcc.toNat).setWidth 64), rfl, ?_⟩
    rw [hacc, hodd, hcnt]
    rfl

/-- Settles O24: other families are blind to the registers, and the three operations see nothing
else. -/
theorem checksumRegistersIndependent : Obligations.ChecksumRegistersIndependent := by
  unfold Obligations.ChecksumRegistersIndependent
  constructor
  · intro i s a o c hchecksum hcontrol
    have hblind := exec_blindToCs i hchecksum hcontrol
    exact ⟨hblind s a o c, fun t => hblind.keeps_cs⟩
  · exact exec_checksum_of_cs_eq

end Sys2Proof.Machine
end

section
/-! SUPPORT. BLD.WR.B on the bytes that the host presents (R144), and why an operation is refused (R245,
R247). -/

namespace Sys2Proof.Machine

/-- A payload that is too long for `MAX_PAYLOAD` or for the checksum gives no packet (R144, log 8). -/
theorem buildWriteDin_none (c : Config) (draw : Nat) (rid : BitVec 16) (addr : BitVec 64)
    (cnt : BitVec 16) (din : Bytes) (h : c.maxPayload.val < cnt.toNat ∨ 65516 < cnt.toNat) :
    buildWriteDin c draw rid addr cnt din = none := by
  have hlen := dinBytes_length draw cnt din
  rw [buildWriteDin_eq]
  rcases Nat.lt_or_ge c.maxPayload.val cnt.toNat with hlong | hfits
  · exact buildWrite_long _ _ _ _ (by rwa [hlen])
  · rw [buildWrite_fits _ _ _ _ (by rwa [hlen])]
    exact frame_none _ _ _ _ (by rw [List.length_append, encBe_length]; omega)

/-- Settles O26: a request outstanding, no packet, or the packet of the presented bytes. -/
theorem bldWrBBuildsWriteRequest : Obligations.BldWrBBuildsWriteRequest := by
  unfold Obligations.BldWrBBuildsWriteRequest
  intro rid addr cnt din s
  have hexec : exec (.bldWrB rid addr cnt din) s
      = build s rid (buildWriteDin s.cfg s.draws rid addr cnt din) := rfl
  rw [hexec]
  refine ⟨build_of_busy s rid _, fun hidle hlong => ?_, fun hidle hmax hcnt hdin => ?_⟩
  · rw [buildWriteDin_none _ _ _ _ _ _ hlong, build_of_no_packet s rid hidle]
  · have hlen : (din.take cnt.toNat).length = cnt.toNat := List.length_take_of_le hdin
    have hframe := frame_eq flagAckReq cmdWriteMem rid (encBe 8 addr.toNat ++ din.take cnt.toNat)
      (by rw [List.length_append, encBe_length, hlen]; omega)
    refine ⟨_, hframe, ?_, ?_⟩
    · rw [packetBytes_length, List.length_append, encBe_length, hlen]
      omega
    · rw [buildWriteDin_eq, dinBytes_take _ _ _ hdin, buildWrite_fits _ _ _ _ (by rwa [hlen]),
        hframe, build_of_packet s _ _ hidle]

/-! ## No result of the codec is a refusal -/

@[simp] theorem okResult_rc : okResult.rc = 0 := rfl
@[simp] theorem okWarn_rc (w : Bool) : (okWarn w).rc = 0 := rfl
@[simp] theorem okVal_rc (v : BitVec 64) : (okVal v).rc = 0 := rfl
@[simp] theorem okTx_rc (p : Bytes) : (okTx p).rc = 0 := rfl
@[simp] theorem okIssue_rc (p : Bytes) (rid : BitVec 16) (drain : Bool) :
    (okIssue p rid drain).rc = 0 := rfl
@[simp] theorem okDout_rc (d : Bytes) (olen adv : BitVec 16) : (okDout d olen adv).rc = 0 := rfl
@[simp] theorem truncDout_rc (d : Bytes) (olen adv : BitVec 16) :
    (truncDout d olen adv).rc = 2 := rfl
@[simp] theorem errWarn_rc (kind : BitVec 12) (rid : BitVec 16) (c : Check) (w : Bool) :
    (errWarn kind rid c w).rc = 1 := rfl

theorem verdictResult_not_refused (exp : BitVec 16) (v : Verdict) :
    (verdictResult exp v).rc ≠ 3 := by
  cases v <;> simp [verdictResult]

theorem extractScalar_not_refused (c : Config) (pkt : Bytes) (exp : BitVec 16) (w : Nat) :
    (extractScalar c pkt exp w).rc ≠ 3 := by
  obtain ⟨v, hr⟩ | ⟨kind, check, hr, -⟩ := extractScalar_cases c pkt exp w
  · simp [hr]
  · simp [hr]

theorem extractBytes_not_refused (c : Config) (pkt : Bytes) (exp cap : BitVec 16) :
    (extractBytes c pkt exp cap).rc ≠ 3 := by
  obtain ⟨d, olen, adv, hr⟩ | ⟨d, olen, adv, hr⟩ | ⟨kind, check, hr, -⟩ :=
    extractBytes_cases c pkt exp cap
  · simp [hr]
  · simp [hr]
  · simp [hr]

theorem judge_not_refused {s : State} {pkt : Bytes} {cap : BitVec 16} {r : ResultPorts}
    (h : judge s pkt cap = some r) : r.rc ≠ 3 := by
  obtain ⟨-, rfl⟩ | ⟨-, rfl⟩ | ⟨w, -, -, -, rfl⟩ := judge_cases s pkt cap r h
  · exact verdictResult_not_refused _ _
  · exact extractBytes_not_refused _ _ _ _
  · exact extractScalar_not_refused _ _ _ w

/-- VAL.* and EXT.* inspect their own packet operand, for a result that is no refusal (R87, R160). -/
theorem exec_of_codec_operand (i : Instr) (s : State)
    (hf : family i = .validate ∨ family i = .extract) :
    ∃ pkt r, pktOperand i = some pkt ∧ exec i s = inspect s pkt r ∧ r.rc ≠ 3 := by
  match i, hf with
  | .valRd _ _, _ => exact ⟨_, _, rfl, rfl, verdictResult_not_refused _ _⟩
  | .valWr _ _, _ => exact ⟨_, _, rfl, rfl, verdictResult_not_refused _ _⟩
  | .extB _ _ _, _ => exact ⟨_, _, rfl, rfl, extractBytes_not_refused _ _ _ _⟩
  | .extU16 _ _, _ => exact ⟨_, _, rfl, rfl, extractScalar_not_refused _ _ _ 2⟩
  | .extU32 _ _, _ => exact ⟨_, _, rfl, rfl, extractScalar_not_refused _ _ _ 4⟩
  | .extU64 _ _, _ => exact ⟨_, _, rfl, rfl, extractScalar_not_refused _ _ _ 8⟩
  | .extF32 _ _, _ => exact ⟨_, _, rfl, rfl, extractScalar_not_refused _ _ _ 4⟩
  | .extF64 _ _, _ => exact ⟨_, _, rfl, rfl, extractScalar_not_refused _ _ _ 8⟩

/-! ## The causes of a refusal, family by family (R245, R247) -/

section Causes

variable (i : Instr) (s : State)

/-- The instruction is refused with the number of its cause, and otherwise answers no refusal. -/
def RefusedForCause : Prop :=
  (∀ r, refusalCause i s = some r → exec i s = .next { s with out := portsRefused r })
  ∧ (refusalCause i s = none → ∀ t, exec i s = .next t → t.out.rc ≠ 3)

variable {i}

/-- An instruction with one cause: it is refused where the cause holds, and not where it does not. -/
theorem refusedForCause_of_ite {p : Prop} [Decidable p] {r : BitVec 3}
    (hcause : refusalCause i s = if p then some r else none)
    (hrefused : p → exec i s = .next { s with out := portsRefused r })
    (hanswer : ¬ p → ∀ t, exec i s = .next t → t.out.rc ≠ 3) : RefusedForCause i s := by
  unfold RefusedForCause
  by_cases hp : p
  · rw [hcause, if_pos hp]
    exact ⟨fun r' hr => Option.some.inj hr ▸ hrefused hp, nofun⟩
  · rw [hcause, if_neg hp]
    exact ⟨nofun, fun _ => hanswer hp⟩

theorem refusedForCause_of_build (hf : family i = .build) : RefusedForCause i s := by
  obtain ⟨rid, packet, hexec, -⟩ := exec_of_build i s hf
  refine refusedForCause_of_ite s (p := s.busy = true) (r := 2) (by simp only [refusalCause, hf])
    (fun hbusy => hexec.trans (build_of_busy s rid packet hbusy)) fun hidle t ht => ?_
  obtain ⟨hbusy, -⟩ | ⟨-, -, rfl⟩ | ⟨p, -, -, rfl⟩ := build_cases s t rid packet (hexec ▸ ht)
  · exact absurd hbusy hidle
  · simp
  · simp

theorem refusedForCause_of_issue (hf : family i = .issueRead ∨ family i = .issueWrite) :
    RefusedForCause i s := by
  have hi : isIssue i = true := by rcases hf with hf | hf <;> simp [isIssue, hf]
  obtain ⟨packet, e, hexec, -⟩ := exec_of_issue i s hi
  refine refusedForCause_of_ite s (p := s.busy = true) (r := 2)
    (by rcases hf with hf | hf <;> simp only [refusalCause, hf])
    (fun hbusy => hexec.trans (issue_of_busy s packet e hbusy)) fun hidle t ht => ?_
  obtain ⟨hbusy, -⟩ | ⟨-, rfl⟩ | ⟨p, e, -, -, -, rfl⟩ := exec_issue_cases hi ht
  · exact absurd hbusy hidle
  · simp
  · simp

theorem refusedForCause_of_codec (hf : family i = .validate ∨ family i = .extract) :
    RefusedForCause i s := by
  obtain ⟨pkt, r, hpkt, hexec, hr⟩ := exec_of_codec_operand i s hf
  refine refusedForCause_of_ite s (p := rxMax s.cfg < pkt.length) (r := 5)
    (by rcases hf with hf | hf <;> simp only [refusalCause, hf, hpkt])
    (fun hlong => hexec.trans (inspect_of_long s pkt r hlong)) fun hfits t ht => ?_
  obtain ⟨hlong, -⟩ | ⟨-, rfl⟩ := inspect_cases s t pkt r (hexec ▸ ht)
  · exact absurd hlong hfits
  · exact hr

theorem refusedForCause_of_csPut (x : Byte) : RefusedForCause (.csPut x) s := by
  refine refusedForCause_of_ite s (p := s.csCnt.toNat = csMaxLen) (r := 4) rfl
    (exec_csPut_of_eq x s) fun hroom t ht => ?_
  obtain rfl := Host.Outcome.next.inj ((exec_csPut_of_ne x s hroom).symm.trans ht)
  simp

theorem timeout_not_refused {t : State} (hbusy : s.busy = true) (h : timeout s = .next t) :
    t.out.rc ≠ 3 := by
  obtain rfl := (done_next _ t _).mp ((timeout_of_busy s hbusy).symm.trans h)
  simp

theorem refusedForCause_of_sqTmo : RefusedForCause .sqTmo s := by
  exact refusedForCause_of_ite s (p := s.busy = false) (r := 3) rfl (timeout_of_idle s)
    fun hbusy t ht => timeout_not_refused s (by simpa using hbusy) ht

/-- SQ.ACK has two causes, NO_REQUEST before RX_RANGE (R215). -/
theorem refusedForCause_of_sqAck (pkt : Bytes) (cap : BitVec 16) :
    RefusedForCause (.sqAck pkt cap) s := by
  cases hbusy : s.busy with
  | false =>
    refine refusedForCause_of_ite s (p := s.busy = false) (r := 3) ?_
      (acknowledge_of_idle s pkt cap) fun hnot => absurd hbusy hnot
    simp [refusalCause, family, hbusy]
  | true =>
    refine refusedForCause_of_ite s (p := rxMax s.cfg < pkt.length) (r := 5) ?_
      (acknowledge_of_long s pkt cap hbusy) fun hfits t ht => ?_
    · simp [refusalCause, family, hbusy]
    obtain ⟨hidle, -⟩ | ⟨-, hlong, -⟩ | ⟨-, -, htmo⟩ | ⟨r, -, -, -, hr, hdone⟩ :=
      acknowledge_cases s t pkt cap ht
    · exact absurd hidle (by simp [hbusy])
    · exact absurd hlong hfits
    · exact timeout_not_refused s hbusy htmo
    · obtain ⟨-, rfl⟩ | ⟨-, rfl⟩ := complete_cases s t r hdone
      · exact judge_not_refused hr
      · exact judge_not_refused hr

/-- An operation that answers Ok in every state has no cause (R240). -/
theorem refusedForCause_of_done {u : State} {r : ResultPorts} (hcause : refusalCause i s = none)
    (hexec : exec i s = done u r) (hr : r.rc = 0) : RefusedForCause i s := by
  refine ⟨fun r' h => by simp [hcause] at h, fun _ t ht => ?_⟩
  obtain rfl := (done_next u t r).mp (hexec.symm.trans ht)
  simp [hr]

end Causes

theorem refusedForCause (i : Instr) (s : State) (hpacket : family i ≠ .packet) :
    RefusedForCause i s := by
  cases hf : family i with
  | control =>
    match i, hf with
    | .srst, _ => exact refusedForCause_of_done s rfl rfl rfl
    | .wrtmo _, _ => exact refusedForCause_of_done s rfl rfl rfl
    | .rdst, _ => exact refusedForCause_of_done s rfl rfl rfl
  | checksum =>
    match i, hf with
    | .csClr, _ => exact refusedForCause_of_done s rfl rfl rfl
    | .csPut x, _ => exact refusedForCause_of_csPut s x
    | .csGet, _ => exact refusedForCause_of_done s rfl rfl rfl
  | build => exact refusedForCause_of_build s hf
  | validate => exact refusedForCause_of_codec s (.inl hf)
  | extract => exact refusedForCause_of_codec s (.inr hf)
  | issueRead => exact refusedForCause_of_issue s (.inl hf)
  | issueWrite => exact refusedForCause_of_issue s (.inr hf)
  | complete =>
    match i, hf with
    | .sqAck pkt cap, _ => exact refusedForCause_of_sqAck s pkt cap
    | .sqTmo, _ => exact refusedForCause_of_sqTmo s
  | packet => exact absurd hf hpacket

/-- Settles O50, family by family; a packet row has no cause. -/
theorem refusedExactlyForCause : Obligations.RefusedExactlyForCause := by
  unfold Obligations.RefusedExactlyForCause
  intro i s
  by_cases hpacket : family i = .packet
  · have hcause : refusalCause i s = none := by simp only [refusalCause, hpacket]
    exact ⟨fun r h => by simp [hcause] at h, fun _ hnot => absurd hpacket hnot⟩
  · obtain ⟨hrefused, hanswer⟩ := refusedForCause i s hpacket
    exact ⟨hrefused, fun hnone _ => hanswer hnone⟩

end Sys2Proof.Machine
end

section
/-! SUPPORT. Requests that the checksums do not tell apart: a 16-bit word 0x0000 against 0xFFFF leaves
the word sum alike modulo 0xFFFF (R124, R152). -/

namespace Sys2Proof.Machine

/-- Two bytes more in front of an encoded number are one word more in the sum. -/
theorem sumWords_encBe_add_two (n v : Nat) :
    sumWords (encBe (n + 2) v) = v / 256 ^ n % 65536 + sumWords (encBe n v) := by
  have hhigh : v / 256 ^ (n + 1) = v / 256 ^ n / 256 := by rw [Nat.pow_succ, Nat.div_div_eq_div_mul]
  rw [encBe_succ, encBe_succ, sumWords_cons, BitVec.toNat_ofNat, BitVec.toNat_ofNat, hhigh]
  omega

theorem sumWords_enc16 (v : BitVec 16) : sumWords (enc16 v) = v.toNat := by
  have hword := sumWords_encBe_add_two 0 v.toNat
  have hlt := v.isLt
  simp only [encBe_zero, sumWords_nil, Nat.pow_zero, Nat.div_one] at hword
  rw [enc16, hword]
  omega

/-- The `i`-th 16-bit word of an address, counted from the least significant. -/
def addrWord (addr : BitVec 64) (i : Nat) : Nat := (addr.extractLsb' (16 * i) 16).toNat

theorem addrWord_eq (addr : BitVec 64) (i : Nat) :
    addr.toNat / 256 ^ (2 * i) % 65536 = addrWord addr i := by
  rw [addrWord, BitVec.extractLsb'_toNat, Nat.shiftRight_eq_div_pow, Nat.pow_mul 2 16, Nat.pow_mul]

theorem sumWords_address (addr : BitVec 64) :
    sumWords (encBe 8 addr.toNat)
      = addrWord addr 3 + (addrWord addr 2 + (addrWord addr 1 + addrWord addr 0)) := by
  rw [sumWords_encBe_add_two 6, sumWords_encBe_add_two 4, sumWords_encBe_add_two 2,
    sumWords_encBe_add_two 0, encBe_zero, sumWords_nil, addrWord_eq addr 3, addrWord_eq addr 2,
    addrWord_eq addr 1, addrWord_eq addr 0, Nat.add_zero]

/-- Two addresses of R152 have word sums that are alike modulo 0xFFFF. -/
theorem sumWords_address_of_wordFlip {j : Nat} {addr addr' : BitVec 64} (h : WordFlip j addr addr') :
    sumWords (encBe 8 addr.toNat) ≡ sumWords (encBe 8 addr'.toNat) [MOD 65535] := by
  obtain ⟨hzero, hones, hothers⟩ := h
  have hword (i : Nat) (hi : i < 4) : addrWord addr i ≡ addrWord addr' i [MOD 65535] := by
    by_cases hij : i = j
    · rw [hij, addrWord, addrWord, hzero, hones]
      rfl
    · rw [addrWord, addrWord, hothers i hi hij]
  rw [sumWords_address, sumWords_address]
  exact (hword 3 (by decide)).add ((hword 2 (by decide)).add
    ((hword 1 (by decide)).add (hword 0 (by decide))))

/-- The word sum of the ten header bytes that both checksums cover (R101). -/
theorem sumWords_frameBody (word8 cmd rid : BitVec 16) (scd : Bytes) :
    sumWords (frameBody word8 cmd rid scd)
      = word8.toNat + cmd.toNat + (BitVec.ofNat 16 scd.length).toNat + rid.toNat := by
  simp [frameBody, sumWords_append, sumWords_enc16, channel, Nat.add_assoc]

/-- A framed packet carries the checksums of its header bytes alone and with the SCD (R101, R142). -/
theorem frame_checksums {word8 cmd rid : BitVec 16} {scd p : Bytes}
    (h : frame word8 cmd rid scd = some p) :
    be16 p 2 = finish (sumWords (frameBody word8 cmd rid scd))
    ∧ be16 p 4 = finish (sumWords (frameBody word8 cmd rid scd) + sumWords scd)
    ∧ sumWords (frameBody word8 cmd rid scd) + sumWords scd < 2 ^ 31 := by
  have hlen := frame_isSome_length _ _ _ _ _ h
  have hsum := sumWords_append (frameBody word8 cmd rid scd) scd (by simp)
  rw [frame_eq _ _ _ _ hlen, hsum] at h
  obtain rfl := Option.some.inj h
  refine ⟨pktCcd_packetBytes .., pktScd_packetBytes .., ?_⟩
  rw [← hsum]
  exact sumWords_lt _ (by simpa using hlen)

/-- Two frames with the same flags, command and length carry the same checksums if their ids and the
word sums of their SCDs are alike modulo 0xFFFF; the flags keep every sum from being zero (R152). -/
theorem frame_sameChecksums {word8 cmd rid rid' : BitVec 16} {scd scd' p q : Bytes}
    (hp : frame word8 cmd rid scd = some p) (hq : frame word8 cmd rid' scd' = some q)
    (hflags : word8 ≠ 0) (hlen : scd.length = scd'.length)
    (hrid : rid.toNat ≡ rid'.toNat [MOD 65535])
    (hscd : sumWords scd ≡ sumWords scd' [MOD 65535]) : SameChecksums p q := by
  have hpos : word8.toNat ≠ 0 := fun h => hflags (BitVec.eq_of_toNat_eq h)
  obtain ⟨hpccd, hpscd, hplt⟩ := frame_checksums hp
  obtain ⟨hqccd, hqscd, hqlt⟩ := frame_checksums hq
  have hbody : sumWords (frameBody word8 cmd rid scd)
      ≡ sumWords (frameBody word8 cmd rid' scd') [MOD 65535] := by
    rw [sumWords_frameBody, sumWords_frameBody, hlen]
    exact hrid.add_left _
  have hpbody := sumWords_frameBody word8 cmd rid scd
  have hqbody := sumWords_frameBody word8 cmd rid' scd'
  rw [SameChecksums, hpccd, hpscd, hqccd, hqscd]
  exact ⟨finish_congr (by omega) (by omega) (by omega) (by omega) hbody,
    finish_congr (by omega) (by omega) (by omega) (by omega) (hbody.add hscd)⟩

/-! ## The requests of R152 -/

theorem buildRead_some (rid : BitVec 16) (addr : BitVec 64) (n : BitVec 16) :
    ∃ p, frame flagAckReq cmdReadMem rid (encBe 8 addr.toNat ++ enc16 0 ++ enc16 n) = some p := by
  obtain ⟨p, hp, -⟩ := buildRead_eq rid addr n
  exact ⟨p, hp⟩

theorem frame_of_buildWrite {c : Config} {rid : BitVec 16} {addr : BitVec 64} {payload p : Bytes}
    (h : buildWrite c rid addr payload = some p) :
    frame flagAckReq cmdWriteMem rid (encBe 8 addr.toNat ++ payload) = some p := by
  obtain ⟨hfit, -⟩ := buildWrite_length c rid addr payload p h
  rwa [buildWrite_fits c rid addr payload hfit] at h

theorem sumWords_after_address (addr : BitVec 64) (rest : Bytes) :
    sumWords (encBe 8 addr.toNat ++ rest) = sumWords (encBe 8 addr.toNat) + sumWords rest :=
  sumWords_append _ _ (by simp)

/-- The payload word 0x0000 against 0xFFFF leaves the word sum alike modulo 0xFFFF. -/
theorem sumWords_payload_flip (before after : Bytes) (heven : before.length % 2 = 0) :
    sumWords (before ++ [0x00#8, 0x00#8] ++ after)
      ≡ sumWords (before ++ [0xFF#8, 0xFF#8] ++ after) [MOD 65535] := by
  rw [sumWords_word_between before after _ _ heven, sumWords_word_between before after _ _ heven]
  exact Nat.ModEq.add_right _ rfl

/-- Settles O32: each pair of requests is framed from ids and SCDs that are alike modulo 0xFFFF. -/
theorem requestIdBlindSpot : Obligations.RequestIdBlindSpot := by
  unfold Obligations.RequestIdBlindSpot
  have hflags : flagAckReq ≠ 0 := by decide
  have hids : (0x0000#16).toNat ≡ (0xFFFF#16).toNat [MOD 65535] := rfl
  have hrid {cmd rid : BitVec 16} {scd p : Bytes} (h : frame flagAckReq cmd rid scd = some p) :
      be16 p 14 = rid := (requestPacket_of_frame cmd rid scd p h).rid_eq
  refine ⟨fun addr cnt => ?_, fun c addr payload p q hp hq => ?_,
    fun rid addr addr' cnt j _ hflip => ?_, fun c rid addr addr' payload p q j _ hflip hp hq => ?_,
    fun c rid addr before after p q heven hp hq => ?_⟩
  · obtain ⟨p, hp⟩ := buildRead_some 0x0000#16 addr cnt
    obtain ⟨q, hq⟩ := buildRead_some 0xFFFF#16 addr cnt
    exact ⟨p, q, hp, hq, hrid hp, hrid hq, frame_sameChecksums hp hq hflags rfl hids rfl⟩
  · have hp := frame_of_buildWrite hp
    have hq := frame_of_buildWrite hq
    exact ⟨hrid hp, hrid hq, frame_sameChecksums hp hq hflags rfl hids rfl⟩
  · obtain ⟨p, hp⟩ := buildRead_some rid addr cnt
    obtain ⟨q, hq⟩ := buildRead_some rid addr' cnt
    refine ⟨p, q, hp, hq, frame_sameChecksums hp hq hflags (by simp) rfl ?_⟩
    rw [List.append_assoc, List.append_assoc, sumWords_after_address, sumWords_after_address]
    exact (sumWords_address_of_wordFlip hflip).add_right _
  · refine frame_sameChecksums (frame_of_buildWrite hp) (frame_of_buildWrite hq) hflags
      (by simp) rfl ?_
    rw [sumWords_after_address, sumWords_after_address]
    exact (sumWords_address_of_wordFlip hflip).add_right _
  · refine frame_sameChecksums (frame_of_buildWrite hp) (frame_of_buildWrite hq) hflags
      (by simp) rfl ?_
    rw [sumWords_after_address, sumWords_after_address]
    exact (sumWords_payload_flip before after heven).add_left _

end Sys2Proof.Machine
end

section
/-! SUPPORT. The builds whose packet always exists but for `MAX_PAYLOAD`: BLD.RD and the scalar writes
(R143, R145 to R150, R153). -/

namespace Sys2Proof.Machine

/-- Settles O25: `buildRead` always has a packet, so only an outstanding request stops the build. -/
theorem bldRdBuildsReadRequest : Obligations.BldRdBuildsReadRequest := by
  unfold Obligations.BldRdBuildsReadRequest
  intro rid addr cnt s
  have hexec : exec (.bldRd rid addr cnt) s = build s rid (buildRead rid addr cnt) := rfl
  rw [hexec]
  refine ⟨build_of_busy s rid _, fun hidle => ?_⟩
  obtain ⟨p, hp, hlen⟩ := buildRead_eq rid addr cnt
  exact ⟨p, hp, hlen, by rw [hp, build_of_packet s rid p hidle]⟩

/-- A payload that fits `MAX_PAYLOAD` and the checksum gives a request 24 bytes longer (R94, R142). -/
theorem buildWrite_some (c : Config) (rid : BitVec 16) (addr : BitVec 64) (payload : Bytes)
    (hfits : payload.length ≤ c.maxPayload.val) (hsum : payload.length ≤ 65516) :
    ∃ p, buildWrite c rid addr payload = some p ∧ p.length = 24 + payload.length := by
  have hframe := frame_eq flagAckReq cmdWriteMem rid (encBe 8 addr.toNat ++ payload)
    (by rw [List.length_append, encBe_length]; omega)
  have hbuild := (buildWrite_fits c rid addr payload hfits).trans hframe
  exact ⟨_, hbuild, (buildWrite_length _ _ _ _ _ hbuild).2⟩

/-- A meaning that builds the WriteMem request of a payload within the checksum's contract does what
R153 and R145 to R150 say. -/
theorem buildsWrite_of_exec {i : Instr} {rid : BitVec 16} {addr : BitVec 64} {payload : Bytes}
    (hexec : ∀ s, exec i s = build s rid (buildWrite s.cfg rid addr payload))
    (hsum : payload.length ≤ 65516) : BuildsWrite i rid addr payload := by
  intro s
  rw [hexec s]
  refine ⟨build_of_busy s rid _, fun hidle hfits => ?_, fun hidle hlong => ?_⟩
  · obtain ⟨p, hp, hlen⟩ := buildWrite_some s.cfg rid addr payload hfits hsum
    exact ⟨p, frame_of_buildWrite hp, hlen, by rw [hp, build_of_packet s rid p hidle]⟩
  · rw [buildWrite_long _ _ _ _ hlong, build_of_no_packet s rid hidle]

/-- Settles O28: each scalar build is a build of its port's bytes, at most 8 of them. -/
theorem scalarBuildsWriteRequest : Obligations.ScalarBuildsWriteRequest := by
  unfold Obligations.ScalarBuildsWriteRequest
  intro rid addr d16 d32 d64
  have hsum (w v : Nat) (hw : w ≤ 8) : (encBe w v).length ≤ 65516 := by
    rw [encBe_length]
    omega
  exact ⟨buildsWrite_of_exec (fun _ => rfl) (hsum 2 _ (by decide)),
    buildsWrite_of_exec (fun _ => rfl) (hsum 4 _ (by decide)),
    buildsWrite_of_exec (fun _ => rfl) (hsum 8 _ (by decide)),
    buildsWrite_of_exec (fun _ => rfl) (hsum 4 _ (by decide)),
    buildsWrite_of_exec (fun _ => rfl) (hsum 8 _ (by decide))⟩

end Sys2Proof.Machine
end

section
/-! SUPPORT. Validation is the first failing check of R161's list: the verdict of the model's nested
tests, line by line against `checkList` (R161 to R165, R168, R244). -/

namespace Sys2Proof.Machine

/-- An acknowledgement whose steps 0 and 1 pass and whose request id is another than `exp` (R163). -/
abbrev ForeignAck (pkt : Bytes) (exp : BitVec 16) : Prop :=
  16 ≤ pkt.length ∧ be16 pkt 0 = 0x0100#16 ∧ be16 pkt 14 ≠ exp

/-- The bit `warn` of a validation: a foreign write acknowledgement (R163). -/
def foreignWarn (isRead : Bool) (pkt : Bytes) (exp : BitVec 16) : Bool :=
  !isRead && decide (ForeignAck pkt exp)

/-- A validation of a read acknowledgement does not warn (R163). -/
@[simp] theorem foreignWarn_read (pkt : Bytes) (exp : BitVec 16) :
    foreignWarn true pkt exp = false := rfl

theorem foreignWarn_write (pkt : Bytes) (exp : BitVec 16) :
    foreignWarn false pkt exp = decide (ForeignAck pkt exp) := rfl

/-- `warn` stays 0 where step 0 or step 1 fails (R163). -/
theorem foreignWarn_of_not_foreign {isRead : Bool} {pkt : Bytes} {exp : BitVec 16}
    (h : ¬ ForeignAck pkt exp) : foreignWarn isRead pkt exp = false := by
  rw [foreignWarn, decide_eq_false h, Bool.and_false]

/-- Behind steps 0 and 1 `warn` compares the request ids. -/
theorem warnFlag_eq_foreignWarn {isRead : Bool} {pkt : Bytes} {exp : BitVec 16}
    (hhdr : 16 ≤ pkt.length) (hpre : be16 pkt 0 = 0x0100#16) :
    warnFlag isRead pkt exp = foreignWarn isRead pkt exp := by
  rw [Bool.eq_iff_iff]
  simp [warnFlag, foreignWarn, hhdr, hpre, pktRid]

/-- The ports of a validation, given `warn` and the check that it reports, if any (R164, R165). -/
def checkResult (exp : BitVec 16) (warn : Bool) : Option CheckLine → ResultPorts
  | none => { portsOk with warn := BitVec.ofBool warn }
  | some l => { portsErr l.kind exp l.step with warn := BitVec.ofBool warn }

theorem checkResult_warn (exp : BitVec 16) (warn : Bool) (l : Option CheckLine) :
    (checkResult exp warn l).warn = BitVec.ofBool warn := by
  cases l <;> rfl

/-- One test of the model against one line of the list: where the test fails both report the line, and
where it passes the rest decides. -/
theorem verdictResult_ite_eq_checkResult {exp : BitVec 16} {warn w : Bool} {p : Prop} [Decidable p]
    {fails : Bool} {kind : BitVec 12} {c : Check} {v : Verdict} {rest : List CheckLine}
    (hfails : fails = true ↔ p) (hwarn : p → w = warn)
    (hrest : ¬ p → verdictResult exp v = checkResult exp warn (rest.find? (·.fails))) :
    verdictResult exp (if p then .fail kind c w else v)
      = checkResult exp warn ((⟨fails, kind, c.number⟩ :: rest).find? (·.fails)) := by
  by_cases hp : p
  · rw [if_pos hp, List.find?_cons_of_pos (hfails.mpr hp), hwarn hp]
    rfl
  · rw [if_neg hp, List.find?_cons_of_neg (fun h => hp (hfails.mp h)), hrest hp]

/-- A validation answers what the first failing line of R161's list says (R161, R163, R168). -/
theorem verdictResult_validate (c : Config) (pkt : Bytes) (exp : BitVec 16) (isRead : Bool) :
    verdictResult exp (validate c pkt exp isRead)
      = checkResult exp (foreignWarn isRead pkt exp) (firstFailure c pkt exp isRead) := by
  unfold validate
  refine verdictResult_ite_eq_checkResult decide_eq_true_iff (fun hshort => ?_) fun hhdr => ?_
  · exact (foreignWarn_of_not_foreign fun h => Nat.not_lt.mpr h.1 hshort).symm
  refine verdictResult_ite_eq_checkResult decide_eq_true_iff (fun hbad => ?_) fun hpre => ?_
  · exact (foreignWarn_of_not_foreign fun h => hbad h.2.1).symm
  refine verdictResult_ite_eq_checkResult (by simp [pktRid]) (fun hread => ?_) fun _ => ?_
  · rw [hread.1, foreignWarn_read]
  dsimp only
  rw [warnFlag_eq_foreignWarn (Nat.not_lt.mp hhdr) (not_not.mp hpre)]
  iterate 5
    refine verdictResult_ite_eq_checkResult decide_eq_true_iff (fun _ => rfl) fun _ => ?_
  exact verdictResult_ite_eq_checkResult Iff.rfl (fun _ => rfl) fun _ => rfl

/-- VAL.RD on a packet within `RX_MAX` (R160, R164). -/
theorem exec_valRd_of_fits (s : State) (pkt : Bytes) (rid : BitVec 16)
    (h : pkt.length ≤ rxMax s.cfg) :
    exec (.valRd pkt rid) s
      = .next { s with out := checkResult rid false (firstFailure s.cfg pkt rid true) } :=
  (inspect_of_fits s pkt _ h).trans (by rw [verdictResult_validate, foreignWarn_read])

/-- VAL.WR on a packet within `RX_MAX` (R160, R165). -/
theorem exec_valWr_of_fits (s : State) (pkt : Bytes) (rid : BitVec 16)
    (h : pkt.length ≤ rxMax s.cfg) :
    exec (.valWr pkt rid) s = .next { s with
      out := checkResult rid (decide (ForeignAck pkt rid)) (firstFailure s.cfg pkt rid false) } :=
  (inspect_of_fits s pkt _ h).trans (by rw [verdictResult_validate, foreignWarn_write])

/-- Settles O34: both operations show the first failing line, VAL.WR with `warn`. -/
theorem validationReportsFirstFailure : Obligations.ValidationReportsFirstFailure := by
  unfold Obligations.ValidationReportsFirstFailure
  intro pkt rid s hfits
  rw [exec_valRd_of_fits s pkt rid hfits, exec_valWr_of_fits s pkt rid hfits]
  refine ⟨?_, BitVec.ofBool (decide (ForeignAck pkt rid)), ?_⟩
  · cases firstFailure s.cfg pkt rid true <;> rfl
  · cases firstFailure s.cfg pkt rid false <;> rfl

/-- Settles O33: an acceptable acknowledgement passes, and `warn` compares the ids. -/
theorem validationAcceptsAck : Obligations.ValidationAcceptsAck := by
  unfold Obligations.ValidationAcceptsAck
  intro pkt rid s hfits
  refine ⟨fun hack hrid => ?_, fun hack => ?_⟩
  · refine (inspect_of_fits s pkt _ hfits).trans ?_
    rw [validate_of_acceptable s.cfg pkt rid true hack fun _ => hrid]
    rfl
  · refine (inspect_of_fits s pkt _ hfits).trans ?_
    have ⟨hhdr, hpre, _⟩ := hack
    rw [validate_of_acceptable s.cfg pkt rid false hack nofun, warnFlag_eq_foreignWarn hhdr hpre,
      foreignWarn_write]
    simp only [verdictResult, okWarn_ports, ForeignAck, hhdr, hpre, true_and]

end Sys2Proof.Machine
end

section
/-! SUPPORT. The bit `warn` of VAL.WR and of SQ.ACK (R163, R215). -/

namespace Sys2Proof.Machine

variable {s t : State} {pkt : Bytes}

theorem ofBool_decide_eq_one_iff {p : Prop} [Decidable p] : BitVec.ofBool (decide p) = 1 ↔ p := by
  by_cases hp : p <;> simp [hp]

/-- What the validation of a write acknowledgement shows on `warn` (R163). -/
theorem verdictResult_write_warn (c : Config) (pkt : Bytes) (exp : BitVec 16) :
    (verdictResult exp (validate c pkt exp false)).warn = 1 ↔ ForeignAck pkt exp := by
  rw [verdictResult_validate, checkResult_warn, foreignWarn_write, ofBool_decide_eq_one_iff]

/-- VAL.WR warns of a foreign acknowledgement that it has not refused (R163). -/
theorem valWr_warn_iff {rid : BitVec 16} (h : exec (.valWr pkt rid) s = .next t) :
    t.out.warn = 1 ↔ pkt.length ≤ rxMax s.cfg ∧ ForeignAck pkt rid := by
  obtain ⟨hlong, rfl⟩ | ⟨hfits, rfl⟩ := inspect_cases s t pkt _ h
  · exact iff_of_false nofun fun hwarn => Nat.not_lt.mpr hwarn.1 hlong
  · rw [State.respond_out, verdictResult_write_warn, and_iff_right hfits]

theorem timeout_warn (h : timeout s = .next t) : t.out.warn = 0 := by
  obtain ⟨-, rfl⟩ | ⟨-, rfl⟩ := timeout_cases s t h <;> rfl

/-- SQ.ACK of an outstanding write warns as VAL.WR does, with `REQID` as the expected id (R163,
R215). -/
theorem sqAck_warn_iff {cap : BitVec 16} (hkind : s.expect.kind = .ack)
    (h : exec (.sqAck pkt cap) s = .next t) :
    t.out.warn = 1 ↔ s.busy = true ∧ pkt.length ≤ rxMax s.cfg ∧ ForeignAck pkt s.reqid := by
  obtain ⟨hidle, rfl⟩ | ⟨-, hlong, rfl⟩ | ⟨-, rfl, htmo⟩ | ⟨r, hbusy, -, hfits, hr, hdone⟩ :=
    acknowledge_cases s t pkt cap h
  · exact iff_of_false nofun fun hwarn => by simp [hidle] at hwarn
  · exact iff_of_false nofun fun ⟨_, hfits, _⟩ => Nat.not_lt.mpr hfits hlong
  · rw [timeout_warn htmo]
    exact iff_of_false nofun fun ⟨_, _, hhdr, _⟩ => absurd hhdr (by decide)
  · have hverdict : r = verdictResult s.reqid (validate s.cfg pkt s.reqid false) := by
      simpa [judge, hkind] using hr.symm
    have hout : t.out = r := by
      obtain ⟨-, rfl⟩ | ⟨-, rfl⟩ := complete_cases s t r hdone <;> rfl
    rw [hout, hverdict, verdictResult_write_warn, and_iff_right hbusy, and_iff_right hfits]

/-- Settles O35: only an operation that judges a write acknowledgement can warn, and each of the two
warns as R163 says. -/
theorem warnExactlyOnForeignWriteAck : Obligations.WarnExactlyOnForeignWriteAck := by
  unfold Obligations.WarnExactlyOnForeignWriteAck
  intro i s t hpacket h
  constructor
  · intro hwarn
    have hjudges : JudgesWriteAck s i := by
      by_contra hnot
      exact absurd (hwarn.symm.trans ((exec_answer hpacket h).warn_zero hnot)) (by decide)
    obtain ⟨pkt, rid, rfl⟩ | ⟨⟨pkt, cap, rfl⟩, hkind⟩ := hjudges
    · obtain ⟨hfits, hhdr, hpre, hrid⟩ := (valWr_warn_iff h).mp hwarn
      exact ⟨pkt, rid, hfits, hhdr, hpre, hrid, .inl rfl⟩
    · obtain ⟨hbusy, hfits, hhdr, hpre, hrid⟩ := (sqAck_warn_iff hkind h).mp hwarn
      exact ⟨pkt, s.reqid, hfits, hhdr, hpre, hrid, .inr ⟨cap, rfl, hbusy, hkind, rfl⟩⟩
  · rintro ⟨pkt, rid, hfits, hhdr, hpre, hrid, rfl | ⟨cap, rfl, hbusy, hkind, rfl⟩⟩
    · exact (valWr_warn_iff h).mpr ⟨hfits, hhdr, hpre, hrid⟩
    · exact (sqAck_warn_iff hkind h).mpr ⟨hbusy, hfits, hhdr, hpre, hrid⟩

end Sys2Proof.Machine
end

section
/-! SUPPORT. What every validation and extraction shares: an error carries the expected id, the empty
packet fails at step 0, and no register changes (R160, R167, R180, R241). -/

namespace Sys2Proof.Machine

/-- A result that a validation or an extraction of `pkt` with the expected id `rid` may answer: an error
carries the id, and the empty packet has no header. -/
structure CodecResult (pkt : Bytes) (rid : BitVec 16) (r : ResultPorts) : Prop where
  erid_of_err : r.rc = 1 → r.erid = rid
  of_nil : pkt = [] → r = portsErr 2 rid 0

variable (c : Config) (pkt : Bytes) (rid : BitVec 16)

theorem codecResult_verdictResult (isRead : Bool) :
    CodecResult pkt rid (verdictResult rid (validate c pkt rid isRead)) where
  erid_of_err hrc := by
    cases hv : validate c pkt rid isRead with
    | pass => simp [hv, verdictResult] at hrc
    | fail => rfl
  of_nil := by rintro rfl; rfl

theorem codecResult_extractScalar (w : Nat) :
    CodecResult pkt rid (extractScalar c pkt rid w) where
  erid_of_err hrc := by
    obtain ⟨v, hr⟩ | ⟨kind, check, hr, -⟩ := extractScalar_cases c pkt rid w
    · simp [hr] at hrc
    · rw [hr]; rfl
  of_nil := by rintro rfl; rfl

theorem codecResult_extractBytes (cap : BitVec 16) :
    CodecResult pkt rid (extractBytes c pkt rid cap) where
  erid_of_err hrc := by
    obtain ⟨d, olen, adv, hr⟩ | ⟨d, olen, adv, hr⟩ | ⟨kind, check, hr, -⟩ :=
      extractBytes_cases c pkt rid cap
    · simp [hr] at hrc
    · simp [hr] at hrc
    · rw [hr]; rfl
  of_nil := by rintro rfl; rfl

/-- An operation with a packet operand inspects that packet with its own `rid` operand (R87, R160). -/
theorem exec_of_pktOperand {i : Instr} {pkt : Bytes} (s : State) (hpkt : pktOperand i = some pkt) :
    ∃ rid r, ridOperand i = some rid ∧ exec i s = inspect s pkt r ∧ CodecResult pkt rid r := by
  match i, hpkt with
  | .valRd _ _, rfl => exact ⟨_, _, rfl, rfl, codecResult_verdictResult ..⟩
  | .valWr _ _, rfl => exact ⟨_, _, rfl, rfl, codecResult_verdictResult ..⟩
  | .extB _ _ _, rfl => exact ⟨_, _, rfl, rfl, codecResult_extractBytes ..⟩
  | .extU16 _ _, rfl => exact ⟨_, _, rfl, rfl, codecResult_extractScalar _ _ _ 2⟩
  | .extU32 _ _, rfl => exact ⟨_, _, rfl, rfl, codecResult_extractScalar _ _ _ 4⟩
  | .extU64 _ _, rfl => exact ⟨_, _, rfl, rfl, codecResult_extractScalar _ _ _ 8⟩
  | .extF32 _ _, rfl => exact ⟨_, _, rfl, rfl, codecResult_extractScalar _ _ _ 4⟩
  | .extF64 _ _, rfl => exact ⟨_, _, rfl, rfl, codecResult_extractScalar _ _ _ 8⟩

/-- Settles O36: refused or judged, the answer stands on the ports alone. -/
theorem codecWritesNoRegister : Obligations.CodecWritesNoRegister := by
  unfold Obligations.CodecWritesNoRegister
  intro i s hf
  obtain ⟨pkt, -, hpkt, -⟩ := exec_of_codec_operand i s hf
  obtain ⟨rid, r, hrid, hexec, hresult⟩ := exec_of_pktOperand s hpkt
  rw [hexec, hrid]
  by_cases hfits : pkt.length ≤ rxMax s.cfg
  · refine ⟨r, inspect_of_fits s pkt r hfits, fun rid' hrid' hrc => ?_⟩
    rw [hresult.erid_of_err hrc, Option.some.inj hrid']
  · exact ⟨portsRefused 5, inspect_of_long s pkt r (Nat.not_le.mp hfits), fun _ _ => nofun⟩

/-- Settles O37: `inspect` refuses a long packet, and the empty one fits every `RX_MAX`. -/
theorem receiveRangeRule : Obligations.ReceiveRangeRule := by
  unfold Obligations.ReceiveRangeRule
  intro i s pkt rid hpkt hrid
  obtain ⟨rid', r, hrid', hexec, hresult⟩ := exec_of_pktOperand s hpkt
  obtain rfl : rid' = rid := Option.some.inj (hrid'.symm.trans hrid)
  rw [hexec]
  refine ⟨inspect_of_long s pkt r, fun hempty => ?_⟩
  rw [inspect_of_fits s pkt r (by simp [hempty]), hresult.of_nil hempty]

end Sys2Proof.Machine
end

section
/-! SUPPORT. What EXT.* shows of the verdict and of the payload of an acknowledgement (R180, R181,
R183). -/

namespace Sys2Proof.Machine

/-- What EXT.B shows of an acceptable acknowledgement (R183). -/
theorem extractBytes_of_acceptable (c : Config) (pkt : Bytes) (exp cap : BitVec 16)
    (hack : AcceptableAck c cmdReadMemAck pkt) (hrid : be16 pkt 14 = exp) :
    extractBytes c pkt exp cap = if cap.toNat < (be16 pkt 12).toNat
      then portsTrunc (slice pkt 16 (16 + cap.toNat)) cap (be16 pkt 12)
      else portsDout (slice pkt 16 (16 + (be16 pkt 12).toNat)) (be16 pkt 12) (be16 pkt 12) := by
  have hadv : be16 pkt 12 = pktLen pkt := rfl
  rw [extractBytes, validate_of_acceptable c pkt exp true hack fun _ => hrid, hadv]
  dsimp only
  by_cases hcut : cap.toNat < (pktLen pkt).toNat
  · rw [if_pos hcut, if_pos hcut, Nat.min_eq_right hcut.le, BitVec.ofNat_toNat, BitVec.setWidth_eq,
      truncDout_ports]
  · rw [if_neg hcut, if_neg hcut, Nat.min_eq_left (Nat.not_lt.mp hcut), okDout_ports]

/-- Settles O40, by the two sides of the caller's capacity. -/
theorem extBCopiesPayload : Obligations.ExtBCopiesPayload := by
  unfold Obligations.ExtBCopiesPayload
  intro pkt rid cap s hmax hack hrid
  have hexec : exec (.extB pkt rid cap) s
      = .next { s with out := extractBytes s.cfg pkt rid cap } :=
    inspect_of_fits s pkt _ hmax
  rw [hexec, extractBytes_of_acceptable s.cfg pkt rid cap hack hrid]
  exact ⟨fun hfits => by rw [if_neg (Nat.not_lt.mpr hfits)], fun hcut => by rw [if_pos hcut]⟩

/-- A verdict on a read acknowledgement that is not Ok is an error without a warning (R163, R164). -/
theorem validate_read_eq_fail {c : Config} {pkt : Bytes} {exp : BitVec 16}
    (h : (verdictResult exp (validate c pkt exp true)).rc ≠ 0) :
    ∃ kind check, validate c pkt exp true = .fail kind check false := by
  obtain ⟨w, hv, rfl⟩ | ⟨kind, check, w, hv, rfl⟩ := validate_read_warn c pkt exp
  · rw [hv] at h
    exact absurd rfl h
  · exact ⟨kind, check, hv⟩

theorem extractScalar_of_rejected {c : Config} {pkt : Bytes} {exp : BitVec 16} (w : Nat)
    (h : (verdictResult exp (validate c pkt exp true)).rc ≠ 0) :
    extractScalar c pkt exp w = verdictResult exp (validate c pkt exp true) := by
  obtain ⟨kind, check, hv⟩ := validate_read_eq_fail h
  rw [extractScalar, hv]
  rfl

theorem extractBytes_of_rejected {c : Config} {pkt : Bytes} {exp : BitVec 16} (cap : BitVec 16)
    (h : (verdictResult exp (validate c pkt exp true)).rc ≠ 0) :
    extractBytes c pkt exp cap = verdictResult exp (validate c pkt exp true) := by
  obtain ⟨kind, check, hv⟩ := validate_read_eq_fail h
  rw [extractBytes, hv]
  rfl

/-- An extraction inspects its packet for a result that is VAL.RD's where VAL.RD does not answer Ok
(R180, R181). -/
theorem exec_of_extract {i : Instr} {pkt : Bytes} {rid : BitVec 16} (s : State)
    (hf : family i = .extract) (hpkt : pktOperand i = some pkt) (hrid : ridOperand i = some rid) :
    ∃ r, exec i s = inspect s pkt r
      ∧ ((verdictResult rid (validate s.cfg pkt rid true)).rc ≠ 0 →
          r = verdictResult rid (validate s.cfg pkt rid true)) := by
  match i, hf, hpkt, hrid with
  | .extB _ _ cap, _, rfl, rfl => exact ⟨_, rfl, extractBytes_of_rejected cap⟩
  | .extU16 _ _, _, rfl, rfl => exact ⟨_, rfl, extractScalar_of_rejected 2⟩
  | .extU32 _ _, _, rfl, rfl => exact ⟨_, rfl, extractScalar_of_rejected 4⟩
  | .extU64 _ _, _, rfl, rfl => exact ⟨_, rfl, extractScalar_of_rejected 8⟩
  | .extF32 _ _, _, rfl, rfl => exact ⟨_, rfl, extractScalar_of_rejected 4⟩
  | .extF64 _ _, _, rfl, rfl => exact ⟨_, rfl, extractScalar_of_rejected 8⟩

/-- Settles O41: a long packet is refused by both, and a rejected one gives both the same result. -/
theorem extractionValidatesFirst : Obligations.ExtractionValidatesFirst := by
  unfold Obligations.ExtractionValidatesFirst
  intro i pkt rid s t hf hpkt hrid hval hrc
  obtain ⟨r, hexec, hr⟩ := exec_of_extract s hf hpkt hrid
  rw [hexec]
  obtain ⟨hlong, rfl⟩ | ⟨hfits, rfl⟩ := inspect_cases s t pkt _ hval
  · exact inspect_of_long s pkt r hlong
  · rw [hr hrc]
    exact inspect_of_fits s pkt _ hfits

end Sys2Proof.Machine
end

section
/-! SUPPORT. A read from end to end: a framed scalar is the one that is extracted, and an issue followed
by the completion it expects (R189, R201, R215). -/

namespace Sys2Proof.Machine

/-- Behind its header a framed packet holds the SCD it was framed with (R142). -/
theorem frame_scd {word8 cmd rid : BitVec 16} {scd p : Bytes}
    (h : frame word8 cmd rid scd = some p) :
    (be16 p 12).toNat = scd.length ∧ ∀ off n, memRead p (16 + off) n = memRead scd off n := by
  have hlen := frame_isSome_length _ _ _ _ _ h
  rw [frame_eq _ _ _ _ hlen] at h
  obtain rfl := Option.some.inj h
  refine ⟨?_, memRead_packetBytes _ _ _ _ _ _ _ _ _⟩
  rw [show be16 _ 12 = BitVec.ofNat 16 scd.length from pktLen_packetBytes .., BitVec.toNat_ofNat,
    Nat.mod_eq_of_lt (by omega)]

/-- A read acknowledgement framed around the bytes of a number gives that number back (R182, R189). -/
theorem extractScalar_of_frame (c : Config) (status rid : BitVec 16) (w v : Nat)
    (hstatus : status.getLsbD 15 = false) (hw : w ≤ c.maxPayload.val) (hv : v < 256 ^ w) :
    ∃ p, frame status cmdReadMemAck rid (encBe w v) = some p ∧ p.length = 16 + w
      ∧ extractScalar c p rid w = portsVal (BitVec.ofNat 64 v) := by
  obtain ⟨p, hp, hlen, hack, hrid⟩ :=
    acceptableAck_of_frame c status cmdReadMemAck rid (encBe w v) hstatus (by simpa using hw)
  obtain ⟨hadv, hread⟩ := frame_scd hp
  rw [encBe_length] at hlen hadv
  have hval : memRead p 16 w = v := by
    rw [hread 0 w, ← List.append_nil (encBe w v), memRead_encBe_append w v [] hv]
  refine ⟨p, hp, hlen, ?_⟩
  rw [extractScalar_of_acceptable c p rid w hack hrid, hadv, if_neg (lt_irrefl w), hval]

/-- SQ.RD.U32 with no request outstanding opens one (R201, R205). -/
theorem exec_sqRdU32_of_idle (s : State) (addr : BitVec 64) (hidle : s.busy = false) :
    ∃ p, exec (.sqRdU32 addr) s = .next ((s.bumpId.openRequest p (expectRead .u32 1 4)).respond
      (okIssue p (nextId s) (drainFlag s.rsync))) := by
  obtain ⟨p, hp, -⟩ := buildRead_eq (nextId s) addr 4
  refine ⟨p, ?_⟩
  rw [exec, execSqRdU32, issue_of_idle s _ _ hidle, hp]
  rfl

/-- SQ.ACK of a packet in which the expected kind finds an Ok result ends the request (R215). -/
theorem exec_sqAck_of_ok {s : State} {pkt : Bytes} {cap : BitVec 16} {r : ResultPorts}
    (hbusy : s.busy = true) (hfits : pkt.length ≤ rxMax s.cfg) (hne : pkt ≠ [])
    (hr : judge s pkt cap = some r) (hok : failedResult r = false) :
    exec (.sqAck pkt cap) s = .next (s.closeRequest.respond r) := by
  rw [exec, execSqAck, acknowledge_of_fits s pkt cap hbusy hfits hne, hr]
  exact if_neg (ne_true_of_eq_false hok)

theorem execAll_cons_of_next {i : Instr} {s t : State} (rest : List Instr)
    (h : exec i s = .next t) : execAll (i :: rest) s = execAll rest t := by
  rw [execAll, h]

/-- Settles O56: the acknowledgement is framed with the id that the issue takes, so the completion
extracts the value framed. -/
theorem readRoundTrip : Obligations.ReadRoundTrip := by
  unfold Obligations.ReadRoundTrip
  intro s addr v cap hidle hmax
  obtain ⟨p, hissue⟩ := exec_sqRdU32_of_idle s addr hidle
  obtain ⟨ack, hack, hlen, hval⟩ :=
    extractScalar_of_frame s.cfg 0 (s.reqid + 1) 4 v.toNat (by decide) hmax v.isLt
  have hfits : ack.length ≤ rxMax s.cfg := by
    have hroom := payload_le_rxMax s.cfg 4 hmax
    omega
  have hne : ack ≠ [] := by rintro rfl; simp at hlen
  have hdone := exec_sqAck_of_ok (cap := cap)
    (s := (s.bumpId.openRequest p (expectRead .u32 1 4)).respond
      (okIssue p (nextId s) (drainFlag s.rsync)))
    rfl hfits hne (congrArg some hval) rfl
  refine ⟨p, ack, hack, ?_⟩
  rw [execAll_cons_of_next _ hissue, execAll_cons_of_next _ hdone, BitVec.ofNat_toNat, hidle]
  rfl

end Sys2Proof.Machine
end

section
/-! SUPPORT. The issues, one equation per outcome, and the requests that they build (R200 to R214, R217,
R218). -/

namespace Sys2Proof.Machine

/-- A drain is owed exactly in AwaitingFlush (R202). -/
theorem drainFlag_eq_decide (r : Resync) : drainFlag r = decide (r = .awaitingFlush) := by
  cases r <;> rfl

section Issue

variable (s : State) (packet : BitVec 16 → Option Bytes) (e : Expect)

/-- With no request outstanding an issue that has a packet opens one, and hands over the drain that is
owed (R201, R202). -/
theorem issue_of_packet {p : Bytes} (hidle : s.busy = false)
    (hp : packet (s.reqid + 1) = some p) :
    issue s packet e = .next { s with
      reqid := s.reqid + 1, lastReq := p, rsync := .idle, busy := true, expect := e
      out := portsIssue p (s.reqid + 1) (decide (s.rsync = .awaitingFlush)) } := by
  rw [issue_of_idle s packet e hidle, show packet (nextId s) = some p from hp,
    Option.elim_some, okIssue_ports, drainFlag_eq_decide]
  rfl

/-- With no request outstanding an issue that has no packet fails, and consumes the id (R217). -/
theorem issue_of_no_packet (hidle : s.busy = false) (hp : packet (s.reqid + 1) = none) :
    issue s packet e = .next { s with
      reqid := s.reqid + 1
      out := { portsErr 2 (s.reqid + 1) 10 with orid := s.reqid + 1 } } := by
  rw [issue_of_idle s packet e hidle, show packet (nextId s) = none from hp]
  rfl

end Issue

/-- A meaning that issues a ReadMem request does what R203 to R208 say: the request always exists. -/
theorem issuesRead_of_exec {i : Instr} {addr : BitVec 64} {n : BitVec 16} {kind : ResponseKind}
    {count : BitVec 16}
    (hexec : ∀ s, exec i s
      = issue s (fun rid => buildRead rid addr n) (expectRead kind count n.toNat)) :
    IssuesRead i addr n kind count := by
  intro s
  rw [hexec s]
  refine ⟨issue_of_busy s _ _, fun hidle => ?_⟩
  obtain ⟨p, hp, hlen⟩ := buildRead_eq (s.reqid + 1) addr n
  exact ⟨p, hp, hlen, issue_of_packet s _ _ hidle hp⟩

/-- Settles O44: each read issue asks for as many bytes as it expects. -/
theorem readIssues : Obligations.ReadIssues := by
  unfold Obligations.ReadIssues
  intro addr cnt
  exact ⟨issuesRead_of_exec fun _ => rfl, issuesRead_of_exec fun _ => rfl,
    issuesRead_of_exec fun _ => rfl, issuesRead_of_exec fun _ => rfl,
    issuesRead_of_exec fun _ => rfl, issuesRead_of_exec fun _ => rfl⟩

/-- A meaning that issues the WriteMem request of a payload within the checksum's contract does what
R210 to R214, R217 and R218 say. -/
theorem issuesWrite_of_exec {i : Instr} {addr : BitVec 64} {payload : Bytes}
    (hexec : ∀ s, exec i s = issue s (fun rid => buildWrite s.cfg rid addr payload) expectAck)
    (hsum : payload.length ≤ 65516) : IssuesWrite i addr payload := by
  intro s
  rw [hexec s]
  refine ⟨issue_of_busy s _ _, fun hidle hfits => ?_, fun hidle hlong => ?_⟩
  · obtain ⟨p, hp, hlen⟩ := buildWrite_some s.cfg (s.reqid + 1) addr payload hfits hsum
    exact ⟨p, frame_of_buildWrite hp, hlen, issue_of_packet s _ _ hidle hp⟩
  · exact issue_of_no_packet s _ _ hidle (buildWrite_long _ _ _ _ hlong)

/-- Settles O45: each scalar issue is an issue of its port's bytes, at most 8 of them. -/
theorem scalarWriteIssues : Obligations.ScalarWriteIssues := by
  unfold Obligations.ScalarWriteIssues
  intro addr d16 d32 d64
  have hsum (w v : Nat) (hw : w ≤ 8) : (encBe w v).length ≤ 65516 := by
    rw [encBe_length]
    omega
  exact ⟨issuesWrite_of_exec (fun _ => rfl) (hsum 2 _ (by decide)),
    issuesWrite_of_exec (fun _ => rfl) (hsum 4 _ (by decide)),
    issuesWrite_of_exec (fun _ => rfl) (hsum 8 _ (by decide)),
    issuesWrite_of_exec (fun _ => rfl) (hsum 4 _ (by decide)),
    issuesWrite_of_exec (fun _ => rfl) (hsum 8 _ (by decide))⟩

/-- A byte payload that fits `MAX_PAYLOAD` and the checksum gives the request of `din[0..cnt)` (R94,
R209). -/
theorem buildWriteDin_some (c : Config) (draw : Nat) (rid : BitVec 16) (addr : BitVec 64)
    (cnt : BitVec 16) (din : Bytes) (hfits : cnt.toNat ≤ c.maxPayload.val)
    (hsum : cnt.toNat ≤ 65516) :
    ∃ p, buildWriteDin c draw rid addr cnt din = some p ∧ p.length = 24 + cnt.toNat
      ∧ frame flagAckReq cmdWriteMem rid (encBe 8 addr.toNat ++ dinBytes draw cnt din)
        = some p := by
  have hcnt := dinBytes_length draw cnt din
  obtain ⟨p, hp, hlen⟩ :=
    buildWrite_some c rid addr (dinBytes draw cnt din) (by rwa [hcnt]) (by rwa [hcnt])
  rw [hcnt] at hlen
  exact ⟨p, (buildWriteDin_eq ..).trans hp, hlen, frame_of_buildWrite hp⟩

/-- Settles O46: a request outstanding, no packet, or the packet of `din[0..cnt)`, which are the
presented bytes, or these and the free ones behind them. -/
theorem byteWriteIssue : Obligations.ByteWriteIssue := by
  unfold Obligations.ByteWriteIssue
  intro addr cnt din s
  have hexec : exec (.sqWrB addr cnt din) s
      = issue s (fun rid => buildWriteDin s.cfg s.draws rid addr cnt din) expectAck := rfl
  rw [hexec]
  refine ⟨issue_of_busy s _ _, fun hidle hlong => ?_, fun hidle hfits hsum hdin => ?_,
    fun hidle hfits hsum hshort => ?_⟩
  · exact issue_of_no_packet s _ _ hidle (buildWriteDin_none _ _ _ _ _ _ hlong)
  · obtain ⟨p, hp, hlen, hframe⟩ :=
      buildWriteDin_some s.cfg s.draws (s.reqid + 1) addr cnt din hfits hsum
    rw [dinBytes_take _ _ _ hdin] at hframe
    exact ⟨p, hframe, hlen, issue_of_packet s _ _ hidle hp⟩
  · obtain ⟨p, hp, -, hframe⟩ :=
      buildWriteDin_some s.cfg s.draws (s.reqid + 1) addr cnt din hfits hsum
    obtain ⟨fill, hfill, hbytes⟩ := dinBytes_append_fill s.draws cnt din hshort
    rw [hbytes] at hframe
    exact ⟨fill, p, hfill, hframe, issue_of_packet s _ _ hidle hp⟩

end Sys2Proof.Machine
end

section
/-! SUPPORT. How a request ends, and the transition table of RSYNC (R215, R216, R221, R248). -/

namespace Sys2Proof.Machine

variable {s t : State}

/-- Settles O48: a timeout is a failure entry where one was configured. -/
theorem timeoutEndsRequest : Obligations.TimeoutEndsRequest := by
  unfold Obligations.TimeoutEndsRequest
  intro s
  have hexec : exec .sqTmo s = timeout s := rfl
  rw [hexec]
  refine ⟨timeout_of_idle s, fun hbusy htmo => ?_, fun hbusy htmo => ?_⟩
  · rw [timeout_of_busy s hbusy, State.timeoutEntry_eq, if_neg htmo]
    rfl
  · rw [timeout_of_busy s hbusy, State.timeoutEntry_eq, if_pos htmo]
    rfl

/-- The results that owe a drain, by the numbers of their classes (R215, R240). -/
theorem failedResult_iff (r : ResultPorts) : failedResult r = true ↔ r.rc = 1 ∨ r.rc = 2 := by
  simp [failedResult, ResultClass.number]

/-- The end of a request as one state: only `BUSY`, `RSYNC` and the ports change (R215). -/
theorem complete_eq (s : State) (r : ResultPorts) :
    complete s r = .next { s with
      busy := false
      rsync := if r.rc = 1 ∨ r.rc = 2 then .awaitingFlush else s.rsync
      out := r } := by
  unfold complete
  by_cases hfailed : failedResult r = true
  · rw [if_pos hfailed, if_pos ((failedResult_iff r).mp hfailed)]
    rfl
  · rw [if_neg hfailed, if_neg (mt (failedResult_iff r).mpr hfailed)]
    rfl

/-- Settles O47: what the expected kind finds is what its own operation answers for the packet. -/
theorem ackCompletesRequest : Obligations.AckCompletesRequest := by
  unfold Obligations.AckCompletesRequest
  intro pkt cap s
  have hexec : exec (.sqAck pkt cap) s = acknowledge s pkt cap := rfl
  rw [hexec]
  refine ⟨acknowledge_of_idle s pkt cap, acknowledge_of_long s pkt cap, ?_, ?_⟩
  · rintro hbusy rfl
    exact acknowledge_of_empty s cap hbusy
  intro hbusy hne hfits hkind
  obtain ⟨r, hr⟩ := Option.ne_none_iff_exists'.mp (mt (judge_eq_none_iff s pkt cap).mp hkind)
  have hsame {i : Instr} {r' : ResultPorts} (hi : exec i s = inspect s pkt r')
      (hr' : judge s pkt cap = some r') : exec i s = .next { s with out := r } := by
    rw [hi, inspect_of_fits s pkt r' hfits, Option.some.inj (hr'.symm.trans hr)]
  refine ⟨r, ?_, ?_, ?_, ?_, ?_, ?_, ?_, ?ends⟩
  case ends =>
    rw [acknowledge_of_fits s pkt cap hbusy hfits hne, hr]
    exact complete_eq s r
  all_goals exact fun hk => hsame rfl (by rw [judge, hk])

/-! ## Step 9 is the timeout's alone (R244) -/

theorem Check.number_ne_nine {c : Check} (h : c ≠ .timeout) : c.number ≠ 9 := by
  cases c with
  | timeout => exact absurd rfl h
  | _ => decide

/-- Nothing that SQ.ACK finds in a packet is a timeout (R215, R244). -/
theorem judge_step_ne_nine {pkt : Bytes} {cap : BitVec 16} {r : ResultPorts}
    (h : judge s pkt cap = some r) : r.step ≠ 9 := by
  obtain ⟨-, rfl⟩ | ⟨-, rfl⟩ | ⟨w, -, -, -, rfl⟩ := judge_cases s pkt cap r h
  · obtain ⟨w, hr⟩ | ⟨kind, check, w, hr, hcheck⟩ := verdictResult_cases s.cfg pkt s.reqid false
    · rw [hr]; nofun
    · rw [hr]; exact Check.number_ne_nine hcheck
  · obtain ⟨d, olen, adv, hr⟩ | ⟨d, olen, adv, hr⟩ | ⟨kind, check, hr, hcheck⟩ :=
      extractBytes_cases s.cfg pkt s.reqid cap
    · rw [hr]; nofun
    · rw [hr]; nofun
    · rw [hr]; exact Check.number_ne_nine hcheck
  · obtain ⟨v, hr⟩ | ⟨kind, check, hr, hcheck⟩ := extractScalar_cases s.cfg pkt s.reqid w
    · rw [hr]; nofun
    · rw [hr]; exact Check.number_ne_nine hcheck

/-! ## The rows of R221 -/

/-- What a completion does to RSYNC, with what tells the three cases apart on the ports: refused, ended
by a timeout at step 9, or ended by a packet at another step or at none. -/
inductive CompletionRsync (s t : State) : Prop where
  | refused (hrc : t.out.rc = 3) (hrsync : t.rsync = s.rsync)
  | timedOut (hrc : t.out.rc = 1) (hstep : t.out.step = 9)
    (hrsync : t.rsync = if s.tmo = 0 then s.rsync else .awaitingFlush)
  | judged (hrc : t.out.rc ≠ 3) (hstep : t.out.step ≠ 9)
    (hrsync : t.rsync = if t.out.rc = 1 ∨ t.out.rc = 2 then .awaitingFlush else s.rsync)

theorem completionRsync_of_timeout (h : timeout s = .next t) : CompletionRsync s t := by
  obtain ⟨-, rfl⟩ | ⟨-, rfl⟩ := timeout_cases s t h
  · exact .refused rfl rfl
  · exact .timedOut rfl rfl (congrArg State.rsync s.timeoutEntry_eq)

theorem completionRsync_of_acknowledge {pkt : Bytes} {cap : BitVec 16}
    (h : acknowledge s pkt cap = .next t) : CompletionRsync s t := by
  obtain ⟨-, rfl⟩ | ⟨-, -, rfl⟩ | ⟨-, -, htmo⟩ | ⟨r, -, -, -, hr, hdone⟩ :=
    acknowledge_cases s t pkt cap h
  · exact .refused rfl rfl
  · exact .refused rfl rfl
  · exact completionRsync_of_timeout htmo
  · obtain rfl := Host.Outcome.next.inj ((complete_eq s r).symm.trans hdone)
    exact .judged (judge_not_refused hr) (judge_step_ne_nine hr) rfl

theorem completionRsync_of_exec {i : Instr} (hf : family i = .complete)
    (h : exec i s = .next t) : CompletionRsync s t := by
  match i, hf with
  | .sqAck _ _, _ => exact completionRsync_of_acknowledge h
  | .sqTmo, _ => exact completionRsync_of_timeout h

namespace CompletionRsync

theorem of_ok_or_refused (h : CompletionRsync s t) (hrc : t.out.rc = 0 ∨ t.out.rc = 3) :
    t.rsync = s.rsync := by
  cases h with
  | refused _ hrsync => exact hrsync
  | timedOut herr => simp [herr] at hrc
  | judged hnot _ hrsync => simpa [hrc.resolve_right hnot] using hrsync

theorem of_failed (h : CompletionRsync s t) (hrc : t.out.rc = 1 ∨ t.out.rc = 2)
    (hstep : t.out.step ≠ 9) : t.rsync = .awaitingFlush := by
  cases h with
  | refused hrefused => simp [hrefused] at hrc
  | timedOut _ hnine => exact absurd hnine hstep
  | judged _ _ hrsync => rwa [if_pos hrc] at hrsync

theorem of_timeout (h : CompletionRsync s t) (hrc : t.out.rc = 1) (hstep : t.out.step = 9) :
    t.rsync = if s.tmo = 0 then s.rsync else .awaitingFlush := by
  cases h with
  | refused hrefused => simp [hrefused] at hrc
  | timedOut _ _ hrsync => exact hrsync
  | judged _ hnine => exact absurd hstep hnine

end CompletionRsync

/-- A successful issue hands over the drain that was owed; any other leaves RSYNC (R202, R217). -/
theorem exec_issue_rsync {i : Instr} (hi : isIssue i = true) (h : exec i s = .next t) :
    (t.out.rc = 0 → t.rsync = .idle ∧ (t.out.drain = 1 ↔ s.rsync = .awaitingFlush))
    ∧ (t.out.rc ≠ 0 → t.rsync = s.rsync) := by
  obtain ⟨-, rfl⟩ | ⟨-, rfl⟩ | ⟨p, e, -, -, -, rfl⟩ := exec_issue_cases hi h
  · exact ⟨nofun, fun _ => rfl⟩
  · exact ⟨nofun, fun _ => rfl⟩
  · refine ⟨fun _ => ⟨rfl, ?_⟩, fun hrc => absurd rfl hrc⟩
    rw [drainFlag_eq_decide]
    exact ofBool_decide_eq_one_iff

/-- RSYNC is left by everything but SRST, the issues and the completions (R221). -/
theorem effect_rsync {i : Instr} (he : Effect s i t) (hsrst : i ≠ .srst)
    (hi : isIssue i = false) (hf : family i ≠ .complete) : t.rsync = s.rsync := by
  cases he with
  | resets => exact absurd rfl hsrst
  | opens i p e hissue => simp [hi] at hissue
  | fails i r hcomplete => exact absurd hcomplete hf
  | setsTmo => rfl
  | clearsCs => rfl
  | putsByte => rfl
  | answers => rfl
  | arrives => rfl
  | stores => rfl
  | consumesId => rfl
  | closes => rfl

/-- Settles O53, row by row: SRST, the issues, the completions and everything else. -/
theorem resyncTransitionTable : Obligations.ResyncTransitionTable := by
  unfold Obligations.ResyncTransitionTable
  intro i s t h
  have hissue (hi : isIssue i = true) := exec_issue_rsync hi h
  have hcomplete (hf : family i = .complete) := completionRsync_of_exec hf h
  refine ⟨?_, fun hi => (hissue hi).1, fun hi => (hissue hi).2,
    fun hf => (hcomplete hf).of_ok_or_refused, fun hf => (hcomplete hf).of_failed,
    fun hf => (hcomplete hf).of_timeout, effect_rsync (exec_effect h)⟩
  rintro rfl
  obtain rfl := (done_next _ t _).mp h
  rfl

end Sys2Proof.Machine
end

section
/-! SUPPORT. The control family's two writes: SRST and WRTMO (R230, R231). -/

namespace Sys2Proof.Machine

theorem exec_srst (s : State) : exec .srst s = done s.resetRegisters okResult := rfl

theorem exec_wrtmo (v : BitVec 32) (s : State) :
    exec (.wrtmo v) s = done { s with tmo := v } okResult := rfl

/-- Resetting the registers is building the reset state of the same configuration anew; what is no
register is carried over (R36, R271). -/
theorem resetRegisters_eq_resetOf (s : State) : s.resetRegisters =
    { State.resetOf s.cfg with pending := s.pending, draws := s.draws, out := s.out } := rfl

/-- Settles O12: SRST resets the registers, and its Ok replaces the ports they carried over. -/
theorem srstResetsRegisters : Obligations.SrstResetsRegisters := by
  unfold Obligations.SrstResetsRegisters
  intro s
  rw [exec_srst, resetRegisters_eq_resetOf, okResult_ports, done, State.respond]

/-- Settles O13: WRTMO answers Ok on the state with the new TMO. -/
theorem wrtmoWritesTmo : Obligations.WrtmoWritesTmo := by
  unfold Obligations.WrtmoWritesTmo
  intro v s
  rw [exec_wrtmo, okResult_ports, done, State.respond]

end Sys2Proof.Machine
end

section
/-! SUPPORT. The reset input: the same reset of the registers as SRST, by an event that is no
instruction (R270, R271). -/

namespace Sys2Proof.Machine

@[simp] theorem decode_reset : decode .reset = .resetInput := rfl

/-- The arm of `step` for the reset input (R270). -/
theorem step_of_reset {s : State} {rest : List Event} (hq : s.pending = .reset :: rest) :
    step s = .next (s.take rest).resetInput := by
  simp only [step, hq, decode_reset]

/-- What is no register is carried over by the reset input, except the result ports, which are zero
as in the reset state (R271, log 12). -/
theorem resetInput_eq_resetOf (s : State) : s.resetInput =
    { State.resetOf s.cfg with pending := s.pending, draws := s.draws } := by
  rw [State.resetInput, resetRegisters_eq_resetOf]
  rfl

/-- Settles O11: the event is taken from the queue, and the rest is the reset of the registers that
SRST makes. -/
theorem resetInputResetsRegisters : Obligations.ResetInputResetsRegisters := by
  unfold Obligations.ResetInputResetsRegisters
  intro s rest hq
  rw [step_of_reset hq, resetInput_eq_resetOf, State.take_cfg, State.take_pending, State.take_draws]

end Sys2Proof.Machine
end
